-- ==== Sys2Proof/Word.lean ====
section
/-! DEFINITION. Word.lean: the one word type of the links and the store, the byte, and the bound of each saturating count. -/

namespace Sys2Proof

/-- One byte of a telegram, of a register entry or of a management payload. -/
abbrev Byte := BitVec 8

/-- The largest value of a 16-bit count. -/
abbrev max16 : Nat := 65535

/-- The largest value of a 32-bit count. -/
abbrev max32 : Nat := 4294967295

/-- Process time is a 32-bit count of tenths of a second (Table 0-3). -/
abbrev timeModulus : Nat := 4294967296

end Sys2Proof
end

