-- ==== Sys2Proof/Syntax.lean ====
section
/-! DEFINITION. Syntax.lean: the commands of the block, one constructor of Instr for each row of the table of
operations and events. The rows give no bits, so the operands are what the rule of each row says it carries. -/

namespace Sys2Proof

/-- A management request as it stands on the trunk link, addressed to the part: its source, its sequence byte and its
argument bytes after class and code (Table 11-1). -/
structure Request where
  src : Byte
  seq : Byte
  args : List Byte
  deriving DecidableEq, Repr, Inhabited

/-- Which store write was not completed: its read-back does not match (R136). -/
inductive FailedWrite where
  | slot
  | copy
  deriving DecidableEq, Repr, Inhabited

/-- The commands: one constructor per row of the table of operations and events. -/
inductive Instr where
  /-- A low level on RST_N, or power-up (R144). -/
  | powerOnReset
  /-- The reset that follows the reply to PART RESET (R188). -/
  | commandedReset
  /-- The 100 ms mark of the time base (R176). -/
  | timeBaseMark
  /-- The start of a field cycle from a held mark (R176). -/
  | heldMarkCycleStart
  /-- A SAMPLE addressed to the part arrives on the field line (R178). -/
  | sampleTelegram (src seq : Byte) (payload : List Byte)
  /-- Any other telegram arrives on the field line, byte by byte as received (R169). -/
  | fieldTelegramDiscard (bytes : List Byte)
  /-- A CONFIRM addressed to the part arrives on the field line (R161). -/
  | confirmTelegram (src tag : Byte) (accepted : Bool)
  /-- The response window of the present poll runs out (R178). -/
  | responseWindowExpiry
  /-- The wait for the present command's CONFIRM runs out (R180). -/
  | commandWaitExpiry
  /-- A vessel's watch timer expires (R40). -/
  | watchTimerExpiry (v : Fin 12)
  /-- A steep's phase timer expires (R50). -/
  | steepPhaseTimerExpiry (i : Fin 4)
  /-- A steep's fill timeout expires (R51). -/
  | fillTimeout (i : Fin 4)
  /-- A steep's drain timeout expires (R52). -/
  | drainTimeout (i : Fin 4)
  /-- A steep's weigh settle time has run (R54). -/
  | weighSettleEnd (i : Fin 4)
  /-- A steep's weighing window expires (R54). -/
  | weighWindowExpiry (i : Fin 4)
  /-- A compartment's stage timer expires (R66). -/
  | stageTimerExpiry (c : Fin 6)
  /-- A compartment's interval timer expires (R71). -/
  | intervalTimerExpiry (c : Fin 6)
  /-- A turner's move timer expires (R81). -/
  | moveTimerExpiry (t : Fin 2)
  /-- A turner's pass timer expires (R81). -/
  | passTimerExpiry (t : Fin 2)
  /-- A minute mark of a kiln's stage firing time (R99). -/
  | breakPoint (k : Fin 2)
  /-- A kiln's stage firing time reaches the minimum duration (R95). -/
  | firingTimeMinimum (k : Fin 2)
  /-- A kiln's stage firing time reaches the maximum duration (R96). -/
  | firingTimeMaximum (k : Fin 2)
  /-- A kiln's cool timer expires (R97). -/
  | coolTimerExpiry (k : Fin 2)
  /-- A kiln's step timer expires (R108). -/
  | stepTimerExpiry (k : Fin 2)
  /-- The transfer's route timer expires (R124). -/
  | routeTimerExpiry
  /-- The transfer's no-flow timer expires (R125). -/
  | noFlowTimerExpiry
  /-- The transfer's run-on timer expires (R128). -/
  | runOnTimerExpiry
  /-- The transfer's draw timer expires (R127). -/
  | drawTimerExpiry
  /-- The excise idle timer expires (R150). -/
  | idleTimerExpiry
  /-- The excise lockout timer expires (R149). -/
  | lockoutTimerExpiry
  /-- The trunk silence timer expires (R173). -/
  | trunkSilenceExpiry
  /-- The write of a counters copy completes (R136). -/
  | countersCopyWritten
  /-- A store write is not completed (R136). -/
  | storeWriteFailure (what : FailedWrite)
  /-- The trunk transmitter finishes a telegram (R172). -/
  | transmitComplete
  /-- A telegram arrives on the trunk link, byte by byte as received (R168). -/
  | trunkTelegram (bytes : List Byte)
  /-- A well laid out COMMAND arrives on the trunk link (R170). -/
  | trunkCommand (dst src code : Byte) (arg : BitVec 32) (tag : Byte)
  | tableWriteEntry (r : Request)
  | tableCommit (r : Request)
  | tableDiscard (r : Request)
  | tableRead (r : Request)
  | batchOpen (r : Request)
  | batchStartSteep (r : Request)
  | batchAbandon (r : Request)
  | batchRelease (r : Request)
  | batchRead (r : Request)
  | vesselSetMode (r : Request)
  | vesselSetGrant (r : Request)
  | vesselRead (r : Request)
  | turnerHome (r : Request)
  | turnerClear (r : Request)
  | turnerRead (r : Request)
  | transferRequest (r : Request)
  | transferResume (r : Request)
  | transferAbort (r : Request)
  | transferRead (r : Request)
  | exciseUnlock (r : Request)
  | exciseLock (r : Request)
  | exciseReadEntry (r : Request)
  | exciseAcknowledgeExport (r : Request)
  | exciseReadStatus (r : Request)
  | partReadStatus (r : Request)
  | partSetPlantTime (r : Request)
  | partReadCounters (r : Request)
  | partClearCounters (r : Request)
  | partReset (r : Request)
  /-- A MGMT_REQUEST whose payload is too short or names no request (R182): its source, sequence and payload. -/
  | unknownRequest (src seq : Byte) (payload : List Byte)
  deriving DecidableEq, Repr, Inhabited

end Sys2Proof
end

