-- ==== Sys2Proof/Decode.lean ====
section
/-! DEFINITION. Decode.lean: the command that a word of the table of operations and events spells. No row of that table
gives bits: commands come as telegrams, pins and timers, and no word spells one. -/

namespace Sys2Proof

/-- The command that the word w of nbits bits spells: none, since no row gives bits. -/
def decodeTableWord (_nbits _w : Nat) : Option Instr := none

end Sys2Proof
end

