-- ==== Sys2Proof/Config.lean ====
section
/-! DEFINITION. Config.lean: the free values. Each is a constant with no body: nothing can be proved of its value,
so a claim that holds, holds whatever the part does there. -/

namespace Sys2Proof

/-- FREE VALUE (DESIGN CHOICE, assumption 3). The argument that the part's own blocks put into a command whose code
does not use one (Table 9-4, 'Not used'): the spec states no value. Applied to the serial number of the offer. -/
opaque Config.unusedArg : Nat → BitVec 32

/-- FREE VALUE (DESIGN CHOICE, assumption 4). The bytes that stand in a reply for an absent field: R182 says that 'an
absent field is sent as its absent value' and gives no such value for the fields of the read requests. Applied to
the number of the reply among those that held an absent field, and to the place of the byte in the result. -/
opaque Config.absentByte : Nat → Nat → Byte

/-- FREE VALUE (DESIGN CHOICE, assumption 5). What the items of the counters record read as in a part whose store
carries its format mark but no copy with a good check (R136): the spec gives no value. Applied to the number of that
start-up and to the place of the item in Table 7-1. -/
opaque Config.unreadableItem : Nat → Nat → Nat

end Sys2Proof
end

