-- ==== Sys2Proof/Machine/State.lean ====
section
/-! DEFINITION. Machine/State.lean: every piece of state the manual gives the part, block by block (Table 0-2), the
queue of waiting commands, and the machine right after its first power-on reset. All of it is plain data. -/

namespace Sys2Proof.Machine

/-- A numbered store of entries of which some are empty: the present ones, numbers strictly rising. -/
abbrev Tbl (α : Type) := List (Nat × α)

/-- A timer: stopped, or holding the tenths of a second left. 0 means that its expiry is due. -/
abbrev Timer := Option Nat

/-! ## Vessels (chapters 2 and 3) -/

/-- Vessel modes (Table 3-1). -/
inductive Mode where
  | off | manual | auto | hold
  deriving DecidableEq, Repr, Inhabited

/-- Vessel fault codes (Table 3-2). -/
inductive FaultCode where
  | fillTimeout | drainTimeout | weighTimeout | commandFailed | turnerFault | stageLimit
  deriving DecidableEq, Repr, Inhabited

/-- What every vessel 0..11 carries: mode and fault code (R43), watch timer and BLIND flag (R38). -/
structure VesselRec where
  mode : Mode := .off
  fault : Option FaultCode := none
  watch : Timer := none
  blind : Bool := false
  deriving DecidableEq, Repr, Inhabited

/-! ## Batches (chapter 1) -/

/-- Batch states (Table 1-2). -/
inductive BatchState where
  | opened | steeping | casting | germinating | loading | kilning | stripping | done | abandoned
  deriving DecidableEq, Repr, Inhabited

/-- The marks of a batch record (R2). -/
structure Marks where
  shortSteep : Bool := false
  waterFloor : Bool := false
  waterCeiling : Bool := false
  disturbed : Bool := false
  massDeviation : Bool := false
  deriving DecidableEq, Repr, Inhabited

/-- The moisture account of a started batch: I, D, W in grams, M in 0.01 %, R the drying remainder (Table 1-1). -/
structure Account where
  intake : Nat
  dry : Nat
  water : Nat
  moisture : Nat
  rem : Nat
  deriving DecidableEq, Repr, Inhabited

/-- A batch record (Table 1-1). The account is absent until BATCH START STEEP. -/
structure Batch where
  id : Nat
  state : BatchState
  vessel : Nat
  steepProg : Nat
  germProg : Nat
  kilnProg : Nat
  m0 : Nat
  acct : Option Account := none
  marks : Marks := {}
  gaps : Nat := 0
  peatSeconds : Nat := 0
  litres : Nat := 0
  draws : Nat := 0
  steepStart : Option Nat := none
  germStart : Option Nat := none
  kilnStart : Option Nat := none
  deriving DecidableEq, Repr, Inhabited

/-- A drying integrator (R12). -/
structure Integrator where
  last : Option Nat := none
  steps : Nat := 0
  skipped : Nat := 0
  deriving DecidableEq, Repr, Inhabited

/-- The batch and moisture unit: 16 record slots (R1), and the integrators of vessels 4..11 (R12). -/
structure BatchUnit where
  slots : Tbl Batch := []
  integ : Vector Integrator 8 := Vector.replicate 8 {}
  deriving DecidableEq, Repr, Inhabited

/-! ## Measurement points (chapter 2) -/

/-- MP kinds (Table 2-3). -/
inductive MpKind where
  | temperature | humidity | airflow | mass | level | co2 | position | runState | encoder | total | rate
  deriving DecidableEq, Repr, Inhabited

/-- Roles (Table 2-4), in the order of their first appearance there. -/
inductive Role where
  | grainMass | level | waterTemp | co2 | fanFlow | valvePos
  | airOnTemp | airOffTemp | bedTemp1 | bedTemp2 | bedTemp3 | bedTemp4 | airOnHumidity | airOffHumidity
  | burnerState | peatState | turnerEncoder | turnerState | weigherTotal | weigherRate | drawerState | none
  deriving DecidableEq, Repr, Inhabited

/-- MP owners (Table 2-1). -/
inductive Owner where
  | vessel (v : Fin 12)
  | turner (t : Fin 2)
  | run
  | none
  deriving DecidableEq, Repr, Inhabited

/-- MP statuses (Table 2-5). -/
inductive MpStatus where
  | none | good | suspect | clamped | failed | stale
  deriving DecidableEq, Repr, Inhabited

/-- The comparator states a value can put a comparator into (Table 2-6). -/
inductive Level where
  | normal | high | low
  deriving DecidableEq, Repr, Inhabited

/-- A comparator: in NORMAL, HIGH or LOW, or SETTLING with the remembered state and settle remaining (Table 2-2). -/
inductive Comparator where
  | steady (l : Level)
  | settling (remembered : Level) (left : Nat)
  deriving DecidableEq, Repr, Inhabited

/-- The table fields of an MP (Table 2-1). -/
structure MpEntry where
  station : Nat
  channel : Nat
  kind : MpKind
  owner : Owner
  role : Role
  rmin : Int
  rmax : Int
  stale : Nat
  low : Option Int
  high : Option Int
  hyst : Option Nat
  settle : Nat
  watch : Bool
  forward : Bool
  deriving DecidableEq, Repr, Inhabited

/-- A value of an MP: for kind ENCODER the count delta with the home-marker flag, which is clear for other kinds. -/
structure MpValue where
  val : Int
  marker : Bool := false
  deriving DecidableEq, Repr, Inhabited

/-- The live state of an MP (Table 2-2), at the values it has when the MP is created. The comparator is absent while
the MP has no effective limit (R31). -/
structure MpLive where
  status : MpStatus := .none
  last : Option MpValue := none
  lastGood : Option Nat := none
  comp : Option Comparator := none
  stageHigh : Option Int := none
  deriving DecidableEq, Repr, Inhabited

/-- The sample intake: the live state of each committed MP, and the unmapped-entry count (R26). -/
structure Intake where
  live : Tbl MpLive := []
  unmapped : Nat := 0
  deriving DecidableEq, Repr, Inhabited

/-! ## Tables (chapters 2 to 8, 10 and 11) -/

/-- CONFIGURATION entries 0..3 (Table 11-4); an empty one takes its default (R184). -/
structure ConfigTable where
  own : Option Nat := none
  plant : Option Nat := none
  silence : Option Nat := none
  budget : Option Nat := none
  deriving DecidableEq, Repr, Inhabited

/-- A STATION entry's table fields (R174): forward-unmapped flag and response window in ms. -/
structure StationEntry where
  fwdUnmapped : Bool
  window : Nat
  deriving DecidableEq, Repr, Inhabited

/-- A poll descriptor (R175); the link is absent for END. -/
structure Descriptor where
  station : Nat := 1
  active : Bool := false
  link : Option Nat := none
  missLimit : Nat := 1
  deriving DecidableEq, Repr, Inhabited

/-- The poll schedule (R175): slot heads that are not END, and descriptors that differ from the reset ones. -/
structure Schedule where
  heads : Tbl Nat := []
  descs : Tbl Descriptor := []
  deriving DecidableEq, Repr, Inhabited

/-- Command origins (R151). -/
inductive Origin where
  | plant | sequencer | override
  deriving DecidableEq, Repr, Inhabited

/-- Turner states (Table 4-7). -/
inductive TurnerState where
  | unhomed | homing | idle | moving | passOut | passBack | fault
  deriving DecidableEq, Repr, Inhabited

/-- Transfer states (Table 6-4). -/
inductive TransferState where
  | routing | running | stalled | clearing | done | aborted
  deriving DecidableEq, Repr, Inhabited

/-- Comparator states as an interlock condition names them (Table 8-2). -/
inductive CompName where
  | normal | high | low | settling
  deriving DecidableEq, Repr, Inhabited

/-- Interlock conditions (Table 8-2). A phase state is held as its place in Table 3-6, 4-4 or 5-4. -/
inductive Condition where
  | always
  | comparator (o : Owner) (r : Role) (c : CompName)
  | status (o : Owner) (r : Role) (st : MpStatus)
  | phase (v : Fin 12) (code : Nat)
  | turner (t : Fin 2) (st : TurnerState)
  | transfer (v : Fin 12) (st : Option TransferState)
  deriving DecidableEq, Repr, Inhabited

/-- Interlock actions (Table 8-2). -/
inductive Action where
  | refuse
  | clamp (lo hi : Int)
  | clampToCap (k : Fin 2)
  deriving DecidableEq, Repr, Inhabited

/-- An interlock entry (Table 8-2). The code is absent for ANY; is tells sense IS from IS_NOT. -/
structure Interlock where
  station : Nat
  code : Option Nat
  onPlant : Bool
  onSequencer : Bool
  onOverride : Bool
  cond : Condition
  is : Bool
  action : Action
  deriving DecidableEq, Repr, Inhabited

/-- Vessel table entry of a steep (Table 3-3), with its watch interval in seconds (R38). -/
structure SteepCfg where
  watch : Nat
  fill : Nat
  drain : Nat
  water : Option Nat
  aerate : Option Nat
  fan : Nat
  full : Nat
  empty : Nat
  deriving DecidableEq, Repr, Inhabited

/-- Vessel table entry of a compartment (Table 4-1), with its watch interval. -/
structure CompCfg where
  watch : Nat
  air : Nat
  fan : Nat
  sprinkler : Option Nat
  length : Nat
  deriving DecidableEq, Repr, Inhabited

/-- Vessel table entry of a kiln (Table 5-1), with its watch interval. -/
structure KilnCfg where
  watch : Nat
  air : Nat
  fan : Nat
  burner : Nat
  peat : Option Nat
  deriving DecidableEq, Repr, Inhabited

/-- Turner entry of the vessel table (Table 4-2). -/
structure TurnerCfg where
  drive : Nat
  moveLimit : Nat
  passLimit : Nat
  endTol : Nat
  markTol : Nat
  deriving DecidableEq, Repr, Inhabited

/-- The VESSEL table: entries 0..11 by vessel kind, and 12..13 for the turners (Table 11-4). -/
structure VesselTable where
  steeps : Tbl SteepCfg := []
  comps : Tbl CompCfg := []
  kilns : Tbl KilnCfg := []
  turners : Tbl TurnerCfg := []
  deriving DecidableEq, Repr, Inhabited

/-- A program header (R184): the count of phases or stages, and the program-wide fields. -/
structure Header (ω : Type) where
  count : Nat
  wide : ω
  deriving DecidableEq, Repr, Inhabited

/-- A program table: headers and stages by entry index (Table 11-4). -/
structure ProgTable (ω σ : Type) where
  headers : Tbl (Header ω) := []
  stages : Tbl σ := []
  deriving DecidableEq, Repr, Inhabited

/-- Steep phase kinds (Table 3-4). -/
inductive PhaseKind where
  | wet | drain | rest
  deriving DecidableEq, Repr, Inhabited

/-- Steep phase fields (Table 3-4). -/
structure SteepPhase where
  kind : PhaseKind
  duration : Nat
  water : Int
  aeration : Bool
  fan : Nat
  weigh : Bool
  deriving DecidableEq, Repr, Inhabited

/-- Steep program-wide fields (Table 3-5). -/
structure SteepWide where
  target : Nat
  earlyCast : Bool
  fillTimeout : Nat
  drainTimeout : Nat
  settle : Nat
  deriving DecidableEq, Repr, Inhabited

/-- Germination stage fields (Table 4-3). -/
structure GermStage where
  duration : Nat
  air : Int
  fan : Nat
  interval : Nat
  spread : Nat
  bedHigh : Option Int
  litres : Nat
  ceiling : Nat
  deriving DecidableEq, Repr, Inhabited

/-- Kiln stage end kinds (Table 5-2). -/
inductive EndKind where
  | moisture | brk | airOff | time
  deriving DecidableEq, Repr, Inhabited

/-- Kiln stage fields (Table 5-2). -/
structure KilnStage where
  air : Int
  fan : Nat
  endKind : EndKind
  endValue : Int
  minDur : Nat
  maxDur : Nat
  request : Nat
  minDuty : Nat
  peat : Bool
  peatFloor : Nat
  airHigh : Option Int
  breakRise : Nat
  breakCeiling : Nat
  deriving DecidableEq, Repr, Inhabited

/-- Kiln program-wide fields (Table 5-3). -/
structure KilnWide where
  coolDur : Nat
  coolFan : Nat
  overrideInt : Nat
  recoveryInt : Nat
  blindCap : Nat
  deriving DecidableEq, Repr, Inhabited

/-- A route step (R119): route station and route number. -/
structure RouteStep where
  station : Nat
  number : Nat
  deriving DecidableEq, Repr, Inhabited

/-- The last entry of the TRANSFER table: drawer station, times and residue mass (Table 6-2). -/
structure RunCfg where
  drawer : Nat
  routeTime : Nat
  noFlow : Nat
  runOn : Nat
  drawLimit : Nat
  residue : Nat
  deriving DecidableEq, Repr, Inhabited

/-- The TRANSFER table: routes by entry index 0..37, and the run's entry 38 (Table 11-4). -/
structure TransferTable where
  routes : Tbl (List RouteStep) := []
  run : Option RunCfg := none
  deriving DecidableEq, Repr, Inhabited

/-- One copy of tables 1..10 (Table 11-4), all empty after a reset (R184). -/
structure Tables where
  config : ConfigTable := {}
  station : Tbl StationEntry := []
  schedule : Schedule := {}
  mp : Tbl MpEntry := []
  interlock : Tbl Interlock := []
  vessel : VesselTable := {}
  steep : ProgTable SteepWide SteepPhase := {}
  germ : ProgTable Unit GermStage := {}
  kiln : ProgTable KilnWide KilnStage := {}
  transfer : TransferTable := {}
  deriving DecidableEq, Repr, Inhabited

/-! ## Sequencers (chapters 3 to 5) -/

/-- Steep phase states (Table 3-6). -/
inductive SteepState where
  | empty | idle | filling | immersed | draining | resting | weighing | castWait | casting
  deriving DecidableEq, Repr, Inhabited

/-- What a steep's wait timer times (R49). -/
inductive WaitFor where
  | fill | drain | settle | window
  deriving DecidableEq, Repr, Inhabited

/-- A steep vessel record (R49): phase state, index, phase timer, wait timer with its purpose, the phase fields read
at the phase's start (R48), whether the drained stand has begun (R52), and whether the CO2 override holds the fan. -/
structure Steep where
  phase : SteepState := .empty
  index : Nat := 0
  phaseTimer : Timer := none
  wait : Option (WaitFor × Nat) := none
  fields : Option SteepPhase := none
  drained : Bool := false
  co2Hold : Bool := false
  deriving DecidableEq, Repr, Inhabited

/-- Compartment phase states (Table 4-4). -/
inductive CompState where
  | empty | receiving | germinating | ready | unloading
  deriving DecidableEq, Repr, Inhabited

/-- Turning demand kinds, in ascending urgency (section 4.4). -/
inductive DemandKind where
  | scheduled | spread | urgent
  deriving DecidableEq, Repr, Inhabited

/-- A turning demand (R70). -/
structure Demand where
  kind : DemandKind
  time : Nat
  turner : Option (Fin 2) := none
  deriving DecidableEq, Repr, Inhabited

/-- A compartment record (R64), with the stage fields read at the stage's start (R63). -/
structure Comp where
  phase : CompState := .empty
  index : Nat := 0
  stageTimer : Timer := none
  interval : Timer := none
  demand : Option Demand := none
  faults : Nat := 0
  fields : Option GermStage := none
  deriving DecidableEq, Repr, Inhabited

/-- Turner fault causes (Table 4-9). -/
inductive TurnerCause where
  | moveTimeout | passTimeout | driveFault | commandFailed | unbiddenMove
  deriving DecidableEq, Repr, Inhabited

/-- A turner record (Table 4-6), with what R75 and R87 remember: the serial of the MOVE_TO that set the target and
whether the filter has reported it ACCEPTED, and the latest usable TURNER_STATE value taken since FAULT was entered. -/
structure Turner where
  state : TurnerState := .unhomed
  position : Option Nat := none
  target : Option Nat := none
  pass : Nat := 0
  passLength : Nat := 0
  marker : Bool := false
  assigned : Option (Fin 6) := none
  cause : Option TurnerCause := none
  moveTimer : Timer := none
  passTimer : Timer := none
  clamps : Nat := 0
  ambiguous : Nat := 0
  slips : Nat := 0
  moveSerial : Option Nat := none
  moveAccepted : Bool := false
  faultReport : Option Int := none
  deriving DecidableEq, Repr, Inhabited

/-- Kiln phase states (Table 5-4); the stage of FIRING(n) is the stage index. -/
inductive KilnState where
  | empty | receiving | waitHeat | firing | cooling | readyStrip | stripping
  deriving DecidableEq, Repr, Inhabited

/-- The thermal condition of a kiln (R107). -/
inductive Thermal where
  | clear | hot | holding
  deriving DecidableEq, Repr, Inhabited

/-- The direction of a kiln's step timer (R108). -/
inductive StepDir where
  | down | up
  deriving DecidableEq, Repr, Inhabited

/-- A kiln record (R91). thermal is the condition as last re-taken and heatSeen the entry into HIGH remembered during
a hold (R107); minutes counts the minute marks taken and minTaken says that the minimum has been taken (R94). -/
structure Kiln where
  phase : KilnState := .empty
  index : Nat := 0
  firing : Nat := 0
  cool : Timer := none
  limitEnded : Bool := false
  grant : Nat := 0
  cap : Nat := 0
  step : Option (StepDir × Nat) := none
  thermal : Thermal := .clear
  heatSeen : Bool := false
  ring : List Int := []
  streak : Nat := 0
  declared : Bool := false
  gate : Bool := false
  peatTime : Option Nat := none
  peatRem : Nat := 0
  burner : Option Int := none
  peat : Option Int := none
  fields : Option KilnStage := none
  minutes : Nat := 0
  minTaken : Bool := false
  deriving DecidableEq, Repr, Inhabited

/-! ## The transfer run (chapter 6) -/

/-- Transfer kinds (Table 6-1). -/
inductive TransferKind where
  | cast | load | strip
  deriving DecidableEq, Repr, Inhabited

/-- A transfer request (R117). Its origin is SEQUENCER, or PLANT where fromPlant is set. -/
structure TransferReq where
  kind : TransferKind
  source : Fin 12
  dest : Option (Fin 13)
  fromPlant : Bool
  time : Nat
  deriving DecidableEq, Repr, Inhabited

/-- A route step of the running transfer: the serial of its ROUTE offer, and whether it is confirmed. -/
structure RouteLeg where
  step : RouteStep
  serial : Nat
  confirmed : Bool := false
  deriving DecidableEq, Repr, Inhabited

/-- The outstanding draw (Table 6-3). -/
structure DrawOut where
  index : Nat
  late : Bool
  massAt : Nat
  sampleAt : Option Int
  serial : Nat
  confirmed : Bool := false
  report : Option Int := none
  deriving DecidableEq, Repr, Inhabited

/-- Abort causes (Table 6-5). -/
inductive AbortCause where
  | operator | commandFailed | routeTimeout | drawTimeout | drawerFault | storeFault
  deriving DecidableEq, Repr, Inhabited

/-- A STOP of an abort: the serial of its offer, whether the filter has reported it, and whether it failed (R131). -/
structure StopOut where
  serial : Nat
  settled : Bool := false
  failed : Bool := false
  deriving DecidableEq, Repr, Inhabited

/-- The running transfer record (Table 6-3). -/
structure Running where
  kind : TransferKind
  source : Fin 12
  dest : Fin 13
  fromPlant : Bool
  batchId : Nat
  state : TransferState
  start : Nat
  route : List RouteLeg
  expected : Nat
  base : Int
  mass : Nat
  points : List Nat
  next : Nat
  out : Option DrawOut
  left : Nat
  routeTimer : Timer
  noFlow : Timer
  runOn : Timer
  draw : Timer
  ranOn : Bool
  cause : Option AbortCause
  stops : List StopOut
  deriving DecidableEq, Repr, Inhabited

/-- The transfer run: request list (R117), running record, and the reserved destination (R122). -/
structure TransferRun where
  requests : List TransferReq := []
  running : Option Running := none
  reserved : Option (Fin 12) := none
  deriving DecidableEq, Repr, Inhabited

/-! ## The excise unit (chapter 7) -/

/-- Restart causes (Table 7-4). -/
inductive RestartCause where
  | power | commanded
  deriving DecidableEq, Repr, Inhabited

/-- Relock causes (Table 7-4). -/
inductive RelockCause where
  | request | idle | reset
  deriving DecidableEq, Repr, Inhabited

/-- Lock states (section 7.7). -/
inductive LockState where
  | locked | unlocked | lockedOut
  deriving DecidableEq, Repr, Inhabited

/-- A register entry (Table 7-2); the aux bytes are a0..a3. -/
structure Entry where
  number : Nat
  kind : Nat
  flags : Nat := 0
  vessel : Nat := 255
  draw : Nat := 255
  batch : Nat := 0
  day : Nat := 0
  second : Nat := 0
  quantity : Nat := 0
  computed : Nat := 0
  a0 : Nat := 0
  a1 : Nat := 0
  a2 : Nat := 0
  a3 : Nat := 0
  chain : BitVec 32 := 0
  deriving DecidableEq, Repr, Inhabited

/-- The pending RESTART mark (Table 7-1, R143). -/
structure RestartMark where
  cause : RestartCause
  openNo : Nat
  further : Nat
  deriving DecidableEq, Repr, Inhabited

/-- The excise tables (Table 7-5), at the values of a formatted store (Table 7-1). -/
structure ExciseTables where
  castDraws : Nat := 2
  loadDraws : Nat := 2
  stripDraws : Nat := 2
  tolerance : Nat := 10
  seed : Nat := 1
  terminal : Nat := 126
  code : Nat := 0
  deriving DecidableEq, Repr, Inhabited

/-- The counters record (R136): every item of Table 7-1 but the slots, at the values of a formatted store. -/
structure Counters where
  next : Nat := 1
  exported : Nat := 0
  chain : BitVec 32 := 0xFFFFFFFF#32
  reservation : Nat := 0
  openNo : Nat := 0
  restart : Option RestartMark := none
  gen : Nat := 1
  tables : ExciseTables := {}
  deriving DecidableEq, Repr, Inhabited

/-- One copy of the counters record in the store, with its sequence number and whether its check is good (R136). -/
structure Copy where
  seq : Nat
  good : Bool
  counters : Counters
  deriving DecidableEq, Repr, Inhabited

/-- The external non-volatile store (R135): format mark, the two counters copies, and the written slots. -/
structure NvStore where
  formatted : Bool := false
  copyA : Option Copy := none
  copyB : Option Copy := none
  slots : Tbl Entry := []
  deriving DecidableEq, Repr, Inhabited

/-- The two originators of management requests (R183). -/
inductive Originator where
  | plant | excise
  deriving DecidableEq, Repr, Inhabited

/-- The store writes of one excise event, not yet complete (R136): its entries, the counters record that closes it, and
whether the excise terminal's long request waits for it. -/
structure WriteJob where
  entries : List Entry
  counters : Counters
  reply : Bool := false
  deriving DecidableEq, Repr, Inhabited

/-- The excise unit. now and slots are in force for the rest of the part (R136); nv is what a reset finds; fresh holds
the entries of the event being taken, and is empty between commands. -/
structure Excise where
  storeFault : Bool := false
  now : Counters := {}
  slots : Tbl Entry := []
  nv : NvStore := {}
  jobs : List WriteJob := []
  fresh : List Entry := []
  lock : LockState := .locked
  failed : Nat := 0
  idle : Timer := none
  lockout : Timer := none
  pendingLock : Option RelockCause := none
  staged : ExciseTables := {}
  deriving DecidableEq, Repr, Inhabited

/-! ## The command filter (chapter 8) -/

/-- On whose behalf a block's command is offered, and to what end (R151). -/
inductive Purpose where
  | vessel (v : Fin 12)
  | drive (t : Fin 2)
  | route
  | draw
  | stopDone (source : Fin 12)
  | stopAbort
  deriving DecidableEq, Repr, Inhabited

/-- Who is told what becomes of a command: the plant controller by its tag, or the offering block. -/
inductive Answer where
  | plant (tag : Nat)
  | block (p : Purpose) (serial : Nat)
  deriving DecidableEq, Repr, Inhabited

/-- An offer (R151). -/
structure Offer where
  station : Nat
  code : Nat
  arg : Int
  origin : Origin
  answer : Answer
  deriving DecidableEq, Repr, Inhabited

/-- The command of an entry that is out in the window: tag and argument as delivered, whom its outcome answers, the
owner it was checked against, whether the entry has been replaced since, and then the outcome that a CONFIRM has given it,
which is reported at the end of the window (R158, R161): true where it was ACCEPTED. -/
structure Flight where
  tag : Nat
  arg : Int
  answer : Answer
  owner : Option (Fin 12)
  replaced : Bool := false
  outcome : Option Bool := none
  deriving DecidableEq, Repr, Inhabited

/-- A command queue entry (R158). -/
structure QEntry where
  offer : Offer
  owner : Option (Fin 12)
  caps : List (Fin 2 × Nat)
  tries : Nat := 0
  flight : Option Flight := none
  deriving DecidableEq, Repr, Inhabited

/-- A waiting offer with the time it was first offered (R159). -/
structure WEntry where
  offer : Offer
  since : Nat
  deriving DecidableEq, Repr, Inhabited

/-- The command filter. serial numbers the offers of the part's own blocks: it is the model's own (assumption 2). -/
structure Filter where
  queue : List QEntry := []
  waiting : List WEntry := []
  tag : Nat := 0
  refused : Nat := 0
  stray : Nat := 0
  serial : Nat := 0
  deriving DecidableEq, Repr, Inhabited

/-! ## The trunk port (chapter 9) and notices (chapter 11) -/

/-- A reply whose place in the reply list is held and that is ready to be sent (R172). -/
structure Reply where
  dest : Nat
  seq : Nat
  payload : List Byte
  isReset : Bool := false
  deriving DecidableEq, Repr, Inhabited

/-- A REFUSAL waiting to be sent (R163). -/
structure Refused where
  station : Nat
  code : Nat
  tag : Nat
  reason : Nat
  detail : Nat
  deriving DecidableEq, Repr, Inhabited

/-- A forwarded SAMPLE telegram in the up-queue (R171): source, sequence and payload as the station sent them. -/
structure UpSample where
  src : Nat
  seq : Nat
  payload : List Byte
  deriving DecidableEq, Repr, Inhabited

/-- Which source the telegram in the transmitter came from (R172). -/
inductive TxFrom where
  | reply (isReset : Bool)
  | refusal
  | notice
  | sample
  deriving DecidableEq, Repr, Inhabited

/-- The telegram the trunk transmitter is sending, byte by byte. -/
structure Sending where
  origin : TxFrom
  bytes : List Byte
  deriving DecidableEq, Repr, Inhabited

/-- The trunk port. held counts the reply places of requests in progress (R168). -/
structure Trunk where
  silence : Timer := some 50
  lost : Bool := false
  checkErrors : Nat := 0
  lengthErrors : Nat := 0
  notTaken : Nat := 0
  refusalLoss : Nat := 0
  drops : Nat := 0
  held : Nat := 0
  replies : List Reply := []
  refusals : List Refused := []
  up : List UpSample := []
  tx : Option Sending := none
  seq : Nat := 0
  deriving DecidableEq, Repr, Inhabited

/-- Notice kinds, in the order of their codes 1..13 (R190). -/
inductive NoticeKind where
  | limit | phase | mode | blind | fault | station | turner | slip | transfer | draw | excise | stageLimit | walkOverrun
  deriving DecidableEq, Repr, Inhabited

/-- Notice source classes, in the order of their codes 1..8 (R190). -/
inductive SourceClass where
  | mp | vessel | turner | transfer | station | trunk | field | excise
  deriving DecidableEq, Repr, Inhabited

/-- A notice, or the pending mark held in its place (R189). The new state is held as its code of Table 11-11. -/
structure Notice where
  kind : NoticeKind
  cls : SourceClass
  idx : Nat
  state : Nat
  count : Nat
  value : Int
  time : Nat
  deriving DecidableEq, Repr, Inhabited

/-- The notice queue and the pending marks, the marks in the order they were set (R189). -/
structure Notices where
  queue : List Notice := []
  marks : List Notice := []
  deriving DecidableEq, Repr, Inhabited

/-! ## The field line (chapters 9 and 10) -/

/-- Station health (R174). -/
structure Health where
  up : Bool := true
  misses : Nat := 0
  lastGood : Option Nat := none
  deriving DecidableEq, Repr, Inhabited

/-- A command handed to the field line master for this window (R160). -/
structure SendCmd where
  station : Nat
  code : Nat
  arg : Int
  tag : Nat
  deriving DecidableEq, Repr, Inhabited

/-- What the field line master is doing: nothing; waiting for the answer to a poll, with the response window in ms,
the miss limit of the polling descriptor, the link to go on with and the visits made (R177, R178); or waiting for a
CONFIRM in the command window with the commands still to send (R180). -/
inductive FieldPhase where
  | idle
  | polling (station window missLimit : Nat) (next : Option Nat) (visits : Nat)
  | window (station window : Nat) (rest : List SendCmd)
  deriving DecidableEq, Repr, Inhabited

/-- The field line master (R169, R176 to R178). sched is the schedule adopted; adopt says that a commit waits for the
next cycle start; sent holds the telegrams put on the line in the present cycle, oldest first. -/
structure FieldLine where
  cycle : Nat := 0
  busy : Bool := false
  heldMark : Bool := false
  adopt : Bool := false
  sched : Schedule := {}
  polled : List Nat := []
  phase : FieldPhase := .idle
  overrunSeen : Bool := false
  health : Tbl Health := []
  overruns : Nat := 0
  unexpected : Nat := 0
  late : Nat := 0
  lost : Nat := 0
  checkErrors : Nat := 0
  lengthErrors : Nat := 0
  seq : Nat := 0
  sent : List (List Byte) := []
  deriving DecidableEq, Repr, Inhabited

/-! ## The management unit (chapter 11) -/

/-- A long request in progress (R183): where its reply goes, and for TURNER HOME which turners have entered IDLE. -/
structure InProgress where
  src : Nat
  seq : Nat
  cls : Nat
  code : Nat
  home0 : Bool := false
  home1 : Bool := false
  deriving DecidableEq, Repr, Inhabited

/-- The management unit. stopped: PART RESET has been taken; resetDue: its reply has been sent (R188). -/
structure Mgmt where
  plant : Option InProgress := none
  excise : Option InProgress := none
  stopped : Bool := false
  resetDue : Bool := false
  unknown : Nat := 0
  deriving DecidableEq, Repr, Inhabited

/-- Plant time when set (R185). -/
structure PlantTime where
  day : Nat
  second : Nat
  tenth : Nat := 0
  deriving DecidableEq, Repr, Inhabited

/-- Process time and plant time (section Time of chapter 0, R185). -/
structure Clock where
  process : Nat := 0
  plant : Option PlantTime := none
  deriving DecidableEq, Repr, Inhabited

/-! ## The part -/

/-- What the command filter reports of a block's command (R157, R158, R160 to R162): ACCEPTED comes with the argument as
delivered (R161). -/
inductive Report where
  | accepted (arg : Int)
  | failed | withdrawn | delivered
  deriving DecidableEq, Repr, Inhabited

/-- An event on its way from one block to another inside a step: a report of the command filter, a prompt to the
transfer run's arbiter (R121), or the excise unit's entry into STORE_FAULT (R136). -/
inductive Event where
  | report (r : Report) (p : Purpose) (serial code : Nat)
  | scan
  | storeFault
  deriving DecidableEq, Repr, Inhabited

/-- The whole part. work holds the events on their way between blocks, and is empty between commands; draws numbers
the replies that held an absent field and the unreadable start-ups; both are the model's own (assumptions 1 and 2).
pending is the queue of commands waiting to be taken, first in, first out. -/
structure State where
  clock : Clock := {}
  trunk : Trunk := {}
  notices : Notices := {}
  field : FieldLine := {}
  intake : Intake := {}
  staged : Tables := {}
  tables : Tables := {}
  vessels : Vector VesselRec 12 := Vector.replicate 12 {}
  steeps : Vector Steep 4 := Vector.replicate 4 {}
  comps : Vector Comp 6 := Vector.replicate 6 {}
  turners : Vector Turner 2 := Vector.replicate 2 {}
  kilns : Vector Kiln 2 := Vector.replicate 2 {}
  batch : BatchUnit := {}
  transfer : TransferRun := {}
  excise : Excise := {}
  filter : Filter := {}
  mgmt : Mgmt := {}
  work : List Event := []
  draws : Nat := 0
  pending : List Instr := []
  deriving DecidableEq, Repr, Inhabited

/-- Why the part stops with a fault. No rule of the manual stops the part, and no meaning faults: the type is empty. -/
inductive Fault where
  deriving DecidableEq, Repr

/-- Why a command has no outcome. -/
inductive Refusal where
  /-- Raised by exec alone, for a command that has no meaning in the model yet. Safe: nothing is claimed of it. -/
  | notModelled (mnemonic : String)
  deriving DecidableEq, Repr, Inhabited

/-! ## Reset -/

/-- Entry 1 of a new register: RESTART, cause POWER, no transfer left open, plant time not set (R138, R144). -/
def Entry.firstRestart : Entry := { number := 1, kind := 13, flags := 4, a0 := 1, chain := 0x95bde4fb#32 }

/-- Entry 2 of a new register: LOCK with relock cause RESET (R144). -/
def Entry.firstLock : Entry := { number := 2, kind := 11, flags := 4, a0 := 3, chain := 0x269bcafa#32 }

/-- The counters record after the start-up of a new part: two entries written (R144). -/
def Counters.first : Counters := { next := 3, chain := 0x269bcafa#32 }

/-- The machine right after the power-on reset of a new part: every block in its reset state, the store formatted
(R135), and the two entries of the start-up taken, their store writes still to come (R136, R144). -/
def State.reset : State :=
  { excise :=
      { now := Counters.first
        slots := [(0, Entry.firstRestart), (1, Entry.firstLock)]
        nv := { formatted := true, copyA := some { seq := 0, good := true, counters := {} } }
        jobs := [{ entries := [Entry.firstRestart, Entry.firstLock], counters := Counters.first }] } }

end Sys2Proof.Machine
end

