-- ==== Sys2Proof/Machine/Ops.lean ====
section
/-! DEFINITION. Machine/Ops.lean: the named operations over numbered stores, fixed banks of records, bytes and counts,
the two cyclic checks, the updates of each block's state, and the look-ups the blocks share. -/

namespace Sys2Proof.Machine

/-! ## Numbered stores -/

/-- The entry numbered n, or none where it is empty. -/
def Tbl.get {α : Type} : Tbl α → Nat → Option α
  | [], _ => none
  | (k, a) :: t, n => if k = n then some a else Tbl.get t n

/-- Entry n becomes a; the numbers stay strictly rising. -/
def Tbl.put {α : Type} : Tbl α → Nat → α → Tbl α
  | [], n, a => [(n, a)]
  | (k, b) :: t, n, a =>
    if n < k then (n, a) :: (k, b) :: t
    else if n = k then (n, a) :: t
    else (k, b) :: Tbl.put t n a

/-- Entry n becomes empty. -/
def Tbl.del {α : Type} : Tbl α → Nat → Tbl α
  | [], _ => []
  | (k, b) :: t, n => if k = n then Tbl.del t n else (k, b) :: Tbl.del t n

/-- Entry n becomes what o holds, or empty. -/
def Tbl.set {α : Type} (t : Tbl α) (n : Nat) (o : Option α) : Tbl α :=
  match o with
  | some a => t.put n a
  | none => t.del n

/-- Entry n, where present, is changed by f. -/
def Tbl.upd {α : Type} (t : Tbl α) (n : Nat) (f : α → α) : Tbl α :=
  match t.get n with
  | some a => t.put n (f a)
  | none => t

/-- The canonical form of a numbered store: every number is above all the numbers before it. -/
def Tbl.wf {α : Type} : Tbl α → Bool
  | [] => true
  | (k, _) :: t => t.all (fun e => decide (k < e.1)) && Tbl.wf t

/-! ## Banks of records -/

/-- Record i of a bank. -/
def bank {α : Type} {n : Nat} (v : Vector α n) (i : Fin n) : α := v[i]

/-- Record i of a bank, changed by f. -/
def onBank {α : Type} {n : Nat} (v : Vector α n) (i : Fin n) (f : α → α) : Vector α n := v.set i (f v[i])

/-! ## Counts -/

/-- n increased by k, saturating at the bound. -/
def satAdd (bound n k : Nat) : Nat := min bound (n + k)

/-- x narrowed to lo..hi: below lo it becomes lo, above hi it becomes hi (R156). -/
def narrow (lo hi x : Int) : Int := if x < lo then lo else if hi < x then hi else x

/-- Tenths of a second from process time b to process time a, modulo 2^32 (R14). -/
def elapsed (a b : Nat) : Nat := (a + timeModulus - b) % timeModulus

/-- A timer that counts down by a tenth while it runs; 0 stays, its expiry being due. -/
def Timer.tick (t : Timer) : Timer := t.map (· - 1)

/-- The timer counts down only while c holds. -/
def Timer.tickIf (c : Bool) (t : Timer) : Timer := if c then t.tick else t

/-! ## Bytes -/

/-- n in k bytes, most significant byte first. -/
def beBytes : Nat → Nat → List Byte
  | 0, _ => []
  | k + 1, n => BitVec.ofNat 8 (n / 256 ^ k) :: beBytes k n

/-- A signed number in k bytes, two's complement, most significant byte first. -/
def beInt (k : Nat) (i : Int) : List Byte := beBytes k (i % (256 : Int) ^ k).toNat

/-- The number that bytes spell, most significant byte first. -/
def ofBytes (bs : List Byte) : Nat := bs.foldl (fun a b => a * 256 + b.toNat) 0

/-- n read as a signed number of w bits, two's complement. -/
def signOf (w n : Nat) : Int := if n % 2 ^ w < 2 ^ (w - 1) then (n % 2 ^ w : Nat) else ((n % 2 ^ w : Nat) : Int) - (2 : Int) ^ w

/-- The signed number that bytes spell. -/
def ofBytesInt (bs : List Byte) : Int := signOf (8 * bs.length) (ofBytes bs)

/-! ## Cyclic checks -/

/-- One bit of the 16-bit check with generator 0x1021 (R166). -/
def crc16Bit (c : BitVec 16) : BitVec 16 := if c.msb then (c <<< 1) ^^^ 0x1021#16 else c <<< 1

/-- One byte of the 16-bit check, most significant bit first. -/
def crc16Byte (c : BitVec 16) (b : Byte) : BitVec 16 :=
  let x := c ^^^ (b.zeroExtend 16 <<< 8)
  crc16Bit (crc16Bit (crc16Bit (crc16Bit (crc16Bit (crc16Bit (crc16Bit (crc16Bit x)))))))

/-- The check of a telegram's bytes (R166): register 0xFFFF at the start, nothing reflected or inverted. -/
def crc16 (bs : List Byte) : BitVec 16 := bs.foldl crc16Byte 0xFFFF#16

/-- One bit of the 32-bit chain check with generator 0x04C11DB7 (R139). -/
def crc32Bit (c : BitVec 32) : BitVec 32 := if c.msb then (c <<< 1) ^^^ 0x04C11DB7#32 else c <<< 1

/-- One byte of the chain check, most significant bit first. -/
def crc32Byte (c : BitVec 32) (b : Byte) : BitVec 32 :=
  let x := c ^^^ (b.zeroExtend 32 <<< 24)
  crc32Bit (crc32Bit (crc32Bit (crc32Bit (crc32Bit (crc32Bit (crc32Bit (crc32Bit x)))))))

/-- The chain check of an entry's bytes, seeded with the check of the entry before it (R139). -/
def crc32 (seed : BitVec 32) (bs : List Byte) : BitVec 32 := bs.foldl crc32Byte seed

/-! ## Updates of the blocks -/

def State.onClock (s : State) (f : Clock → Clock) : State := { s with clock := f s.clock }
def State.onTrunk (s : State) (f : Trunk → Trunk) : State := { s with trunk := f s.trunk }
def State.onNotices (s : State) (f : Notices → Notices) : State := { s with notices := f s.notices }
def State.onField (s : State) (f : FieldLine → FieldLine) : State := { s with field := f s.field }
def State.onIntake (s : State) (f : Intake → Intake) : State := { s with intake := f s.intake }
def State.onStaged (s : State) (f : Tables → Tables) : State := { s with staged := f s.staged }
def State.onTables (s : State) (f : Tables → Tables) : State := { s with tables := f s.tables }
def State.onVessel (s : State) (v : Fin 12) (f : VesselRec → VesselRec) : State := { s with vessels := onBank s.vessels v f }
def State.onSteep (s : State) (i : Fin 4) (f : Steep → Steep) : State := { s with steeps := onBank s.steeps i f }
def State.onComp (s : State) (c : Fin 6) (f : Comp → Comp) : State := { s with comps := onBank s.comps c f }
def State.onTurner (s : State) (t : Fin 2) (f : Turner → Turner) : State := { s with turners := onBank s.turners t f }
def State.onKiln (s : State) (k : Fin 2) (f : Kiln → Kiln) : State := { s with kilns := onBank s.kilns k f }
def State.onBatch (s : State) (f : BatchUnit → BatchUnit) : State := { s with batch := f s.batch }
def State.onTransfer (s : State) (f : TransferRun → TransferRun) : State := { s with transfer := f s.transfer }
def State.onExcise (s : State) (f : Excise → Excise) : State := { s with excise := f s.excise }
def State.onFilter (s : State) (f : Filter → Filter) : State := { s with filter := f s.filter }
def State.onMgmt (s : State) (f : Mgmt → Mgmt) : State := { s with mgmt := f s.mgmt }

/-- An event set out for another block; it is taken when the block at work has done. -/
def State.emit (s : State) (e : Event) : State := { s with work := s.work ++ [e] }

def State.vessel (s : State) (v : Fin 12) : VesselRec := bank s.vessels v
def State.steep (s : State) (i : Fin 4) : Steep := bank s.steeps i
def State.comp (s : State) (c : Fin 6) : Comp := bank s.comps c
def State.turner (s : State) (t : Fin 2) : Turner := bank s.turners t
def State.kiln (s : State) (k : Fin 2) : Kiln := bank s.kilns k

/-- The present process time, as every rule that stamps or measures reads it. -/
def State.timeNow (s : State) : Nat := s.clock.process

/-! ## Vessel numbers (Table 0-4) -/

/-- Which vessel a vessel number names. -/
inductive VesselIs where
  | steep (i : Fin 4)
  | comp (c : Fin 6)
  | kiln (k : Fin 2)
  deriving DecidableEq, Repr, Inhabited

/-- Steeps are 0..3, compartments 4..9 and kilns 10..11. -/
def vesselIs (v : Fin 12) : VesselIs :=
  if h : v.val < 4 then .steep ⟨v.val, h⟩
  else if h' : v.val < 10 then .comp ⟨v.val - 4, by omega⟩
  else .kiln ⟨v.val - 10, by omega⟩

def steepNo (i : Fin 4) : Fin 12 := ⟨i.val, by omega⟩
def compNo (c : Fin 6) : Fin 12 := ⟨c.val + 4, by omega⟩
def kilnNo (k : Fin 2) : Fin 12 := ⟨k.val + 10, by omega⟩

/-- The other of two: the other turner, or the other kiln. -/
def other (k : Fin 2) : Fin 2 := if k = 0 then 1 else 0

/-- The vessel a number names, where it is 0..11. -/
def vesselOf (n : Nat) : Option (Fin 12) := if h : n < 12 then some ⟨n, h⟩ else none

/-- Turner 0..1 or kiln 0..1 by its index. -/
def twoOf (n : Nat) : Option (Fin 2) := if h : n < 2 then some ⟨n, h⟩ else none

/-- The integrator of a compartment or kiln (R12). -/
def integNo (v : Fin 12) : Option (Fin 8) := if h : 4 ≤ v.val then some ⟨v.val - 4, by omega⟩ else none

/-! ## Field command codes (Table 9-4) -/

abbrev cOPEN : Nat := 1
abbrev cCLOSE : Nat := 2
abbrev cRUN : Nat := 3
abbrev cSTOP : Nat := 4
abbrev cSETPOINT : Nat := 5
abbrev cDUTYCAP : Nat := 6
abbrev cMOVETO : Nat := 7
abbrev cFORWARD : Nat := 8
abbrev cBACK : Nat := 9
abbrev cDRAW : Nat := 10
abbrev cSPRINKLE : Nat := 11
abbrev cROUTE : Nat := 12

/-! ## Configuration (R184): an empty entry takes its default -/

def State.ownAddr (s : State) : Nat := s.tables.config.own.getD 112
def State.plantAddr (s : State) : Nat := s.tables.config.plant.getD 1
def State.silenceTenths (s : State) : Nat := s.tables.config.silence.getD 5 * 10
def ConfigTable.budgetOf (c : ConfigTable) : Nat := c.budget.getD 12
/-- The firing budget B (R101). -/
def State.budget (s : State) : Nat := s.tables.config.budgetOf
/-- The excise terminal's address, from the committed excise tables (R147). -/
def State.terminalAddr (s : State) : Nat := s.excise.now.tables.terminal

/-! ## Vessel table -/

def State.steepCfg (s : State) (i : Fin 4) : Option SteepCfg := s.tables.vessel.steeps.get i.val
def State.compCfg (s : State) (c : Fin 6) : Option CompCfg := s.tables.vessel.comps.get c.val
def State.kilnCfg (s : State) (k : Fin 2) : Option KilnCfg := s.tables.vessel.kilns.get k.val
def State.turnerCfg (s : State) (t : Fin 2) : Option TurnerCfg := s.tables.vessel.turners.get t.val

/-- The watch interval of a vessel in seconds, from its entry in a vessel table (R38). -/
def VesselTable.watchOf (t : VesselTable) (v : Fin 12) : Option Nat :=
  match vesselIs v with
  | .steep i => (t.steeps.get i.val).map (·.watch)
  | .comp c => (t.comps.get c.val).map (·.watch)
  | .kiln k => (t.kilns.get k.val).map (·.watch)

/-! ## Programs (R184) -/

/-- The stages 0..n-1 of a program that are present, up to the first empty one, from entry index e on. -/
def stagesFrom {σ : Type} (t : Tbl σ) : Nat → Nat → List σ
  | 0, _ => []
  | n + 1, e =>
    match t.get e with
    | some a => a :: stagesFrom t n (e + 1)
    | none => []

/-- The stages that program p has: those below its header's count, down to the first empty one (R184). width is the
number of entries of a program. -/
def ProgTable.stagesOf {ω σ : Type} (t : ProgTable ω σ) (width p : Nat) : List σ :=
  match t.headers.get (width * p) with
  | some h => stagesFrom t.stages h.count (width * p + 1)
  | none => []

/-- The program-wide fields of program p. -/
def ProgTable.wideOf {ω σ : Type} (t : ProgTable ω σ) (width p : Nat) : Option ω :=
  (t.headers.get (width * p)).map (·.wide)

/-- A program is loaded when it has at least one phase or stage (R48, R63, R90). -/
def ProgTable.loaded {ω σ : Type} (t : ProgTable ω σ) (width p : Nat) : Bool := !(t.stagesOf width p).isEmpty

/-- Entries of one steep program, of one germination or kiln program (Table 11-4). -/
abbrev steepWidth : Nat := 13
abbrev stageWidth : Nat := 9

/-! ## Batches -/

/-- A batch that a vessel holds: a record in one of these states names the vessel (R44). -/
def BatchState.held : BatchState → Bool
  | .done | .abandoned => false
  | _ => true

/-- The batch a vessel holds, with its slot. -/
def State.batchAt (s : State) (v : Fin 12) : Option (Nat × Batch) :=
  s.batch.slots.find? (fun e => e.2.state.held && decide (e.2.vessel = v.val))

/-- Batch record n, changed by f. -/
def State.onSlot (s : State) (n : Nat) (f : Batch → Batch) : State :=
  s.onBatch fun b => { b with slots := b.slots.upd n f }

/-- The moisture that the batch unit has last handed over for the batch of a vessel. -/
def State.moistureAt (s : State) (v : Fin 12) : Option Nat :=
  (s.batchAt v).bind fun e => e.2.acct.map (·.moisture)

/-! ## Measurement points -/

/-- The MPs that an owner has in a role, in ascending number. -/
def State.mpsOf (s : State) (o : Owner) (r : Role) : List Nat :=
  (s.tables.mp.filter fun e => e.2.owner = o ∧ e.2.role = r).map (·.1)

/-- The MP the owner uses for a role: the lowest-numbered (R29). -/
def State.mpOf (s : State) (o : Owner) (r : Role) : Option Nat := (s.mpsOf o r).head?

def State.live (s : State) (n : Nat) : MpLive := (s.intake.live.get n).getD {}

def State.onLive (s : State) (n : Nat) (f : MpLive → MpLive) : State :=
  s.onIntake fun i => { i with live := i.live.put n (f ((i.live.get n).getD {})) }

/-- Usable: GOOD or SUSPECT (Table 2-5). -/
def MpStatus.usable : MpStatus → Bool
  | .good | .suspect => true
  | _ => false

/-- The present value of an MP, where its status is usable. -/
def State.usableOf (s : State) (n : Nat) : Option Int :=
  let l := s.live n
  if l.status.usable then l.last.map (·.val) else none

/-- The present usable value of the MP an owner uses for a role. -/
def State.usableRole (s : State) (o : Owner) (r : Role) : Option Int := (s.mpOf o r).bind s.usableOf

end Sys2Proof.Machine
end

