-- ==== Sys2Proof/Machine/Codes.lean ====
section
/-! DEFINITION. Machine/Codes.lean: how each set of names is coded in notices, requests, replies and register entries
(Tables 2-1 to 8-4, 11-2, 11-3 and 11-11; R182: a name is coded by its place, counted from 0, unless a table codes it). -/

namespace Sys2Proof.Machine

/-- The name at place n of a list of names. -/
def nameAt {α : Type} (l : List α) (n : Nat) : Option α := l[n]?

/-- The place of a name in its list, counted from 0. -/
def placeOf {α : Type} [DecidableEq α] (l : List α) (a : α) : Nat := l.idxOf a

/-- OFF 0, MANUAL 1, AUTO 2, HOLD 3 (Table 11-11). -/
def Mode.all : List Mode := [.off, .manual, .auto, .hold]
def Mode.code (m : Mode) : Nat := placeOf Mode.all m

/-- The places of Table 3-2. -/
def FaultCode.all : List FaultCode :=
  [.fillTimeout, .drainTimeout, .weighTimeout, .commandFailed, .turnerFault, .stageLimit]
def FaultCode.code (c : FaultCode) : Nat := placeOf FaultCode.all c

/-- The places of Table 1-2. -/
def BatchState.all : List BatchState :=
  [.opened, .steeping, .casting, .germinating, .loading, .kilning, .stripping, .done, .abandoned]
def BatchState.code (b : BatchState) : Nat := placeOf BatchState.all b

/-- The places of Table 2-3. -/
def MpKind.all : List MpKind :=
  [.temperature, .humidity, .airflow, .mass, .level, .co2, .position, .runState, .encoder, .total, .rate]
def MpKind.code (k : MpKind) : Nat := placeOf MpKind.all k

/-- The roles of Table 2-4 in the order of their first appearance there (DESIGN CHOICE, assumption 6). -/
def Role.all : List Role :=
  [.grainMass, .level, .waterTemp, .co2, .fanFlow, .valvePos, .airOnTemp, .airOffTemp, .bedTemp1, .bedTemp2, .bedTemp3,
   .bedTemp4, .airOnHumidity, .airOffHumidity, .burnerState, .peatState, .turnerEncoder, .turnerState, .weigherTotal,
   .weigherRate, .drawerState, .none]
def Role.code (r : Role) : Nat := placeOf Role.all r

/-- The places of Table 2-5. -/
def MpStatus.all : List MpStatus := [.none, .good, .suspect, .clamped, .failed, .stale]
def MpStatus.code (m : MpStatus) : Nat := placeOf MpStatus.all m

/-- NORMAL 0, HIGH 1, LOW 2 (Table 11-11). -/
def Level.all : List Level := [.normal, .high, .low]
def Level.code (l : Level) : Nat := placeOf Level.all l

/-- SETTLING follows NORMAL, HIGH and LOW in Table 2-2 (DEDUCED, assumption 7). -/
def Comparator.code : Comparator → Nat
  | .steady l => l.code
  | .settling _ _ => 3

def CompName.all : List CompName := [.normal, .high, .low, .settling]
def CompName.code (c : CompName) : Nat := placeOf CompName.all c

/-- The name of a comparator's state; a SETTLING comparator is SETTLING whatever it remembers (R156). -/
def Comparator.name : Comparator → CompName
  | .steady .normal => .normal
  | .steady .high => .high
  | .steady .low => .low
  | .settling _ _ => .settling

/-- The places of Table 3-6. -/
def SteepState.all : List SteepState :=
  [.empty, .idle, .filling, .immersed, .draining, .resting, .weighing, .castWait, .casting]
def SteepState.code (p : SteepState) : Nat := placeOf SteepState.all p

/-- The places of Table 4-4. -/
def CompState.all : List CompState := [.empty, .receiving, .germinating, .ready, .unloading]
def CompState.code (p : CompState) : Nat := placeOf CompState.all p

/-- The places of Table 5-4; FIRING(n) is coded as FIRING (R190). -/
def KilnState.all : List KilnState := [.empty, .receiving, .waitHeat, .firing, .cooling, .readyStrip, .stripping]
def KilnState.code (p : KilnState) : Nat := placeOf KilnState.all p

/-- BREAK in a kiln's PHASE notice (Table 11-11). -/
abbrev breakCode : Nat := 7

/-- The places of Table 4-7. -/
def TurnerState.all : List TurnerState := [.unhomed, .homing, .idle, .moving, .passOut, .passBack, .fault]
def TurnerState.code (t : TurnerState) : Nat := placeOf TurnerState.all t

/-- The places of Table 4-9. -/
def TurnerCause.all : List TurnerCause := [.moveTimeout, .passTimeout, .driveFault, .commandFailed, .unbiddenMove]
def TurnerCause.code (c : TurnerCause) : Nat := placeOf TurnerCause.all c

/-- SCHEDULED, SPREAD, URGENT (R70), in ascending urgency. -/
def DemandKind.all : List DemandKind := [.scheduled, .spread, .urgent]
def DemandKind.code (d : DemandKind) : Nat := placeOf DemandKind.all d

/-- The places of Table 6-4. -/
def TransferState.all : List TransferState := [.routing, .running, .stalled, .clearing, .done, .aborted]
def TransferState.code (t : TransferState) : Nat := placeOf TransferState.all t

/-- The places of Table 6-1. -/
def TransferKind.all : List TransferKind := [.cast, .load, .strip]
def TransferKind.code (k : TransferKind) : Nat := placeOf TransferKind.all k

/-- The codes of Table 7-4: OPERATOR 1 to STORE_FAULT 6. -/
def AbortCause.all : List AbortCause := [.operator, .commandFailed, .routeTimeout, .drawTimeout, .drawerFault, .storeFault]
def AbortCause.code (c : AbortCause) : Nat := placeOf AbortCause.all c + 1

/-- REQUEST 1, IDLE 2, RESET 3 (Table 7-4). -/
def RelockCause.all : List RelockCause := [.request, .idle, .reset]
def RelockCause.code (c : RelockCause) : Nat := placeOf RelockCause.all c + 1

/-- POWER 1, COMMANDED 2, as register entries carry them (Table 7-4). -/
def RestartCause.all : List RestartCause := [.power, .commanded]
def RestartCause.code (c : RestartCause) : Nat := placeOf RestartCause.all c + 1

/-- LOCKED 0, UNLOCKED 1, LOCKED_OUT 2 (Table 11-11). -/
def LockState.all : List LockState := [.locked, .unlocked, .lockedOut]
def LockState.code (l : LockState) : Nat := placeOf LockState.all l

/-- FULL 3 and STORE_FAULT 4 in EXCISE notices (Table 11-11). -/
abbrev fullCode : Nat := 3
abbrev storeFaultCode : Nat := 4

/-- MOISTURE 0, BREAK 1, AIR_OFF 2, TIME 3 (Table 11-11). -/
def EndKind.all : List EndKind := [.moisture, .brk, .airOff, .time]
def EndKind.code (e : EndKind) : Nat := placeOf EndKind.all e

def PhaseKind.all : List PhaseKind := [.wet, .drain, .rest]
def PhaseKind.code (p : PhaseKind) : Nat := placeOf PhaseKind.all p

/-- The purposes of a steep's wait timer as R60 lists them: fill, drain, settle, window. -/
def WaitFor.all : List WaitFor := [.fill, .drain, .settle, .window]
def WaitFor.code (w : WaitFor) : Nat := placeOf WaitFor.all w

/-- HOLDING, HOT, CLEAR, in the order of R107. -/
def Thermal.all : List Thermal := [.holding, .hot, .clear]
def Thermal.code (t : Thermal) : Nat := placeOf Thermal.all t

/-- down, up, in the order of R108. -/
def StepDir.all : List StepDir := [.down, .up]
def StepDir.code (d : StepDir) : Nat := placeOf StepDir.all d

/-- Notice kinds are coded 1..13 in the order of R190. -/
def NoticeKind.all : List NoticeKind :=
  [.limit, .phase, .mode, .blind, .fault, .station, .turner, .slip, .transfer, .draw, .excise, .stageLimit, .walkOverrun]
def NoticeKind.code (k : NoticeKind) : Nat := placeOf NoticeKind.all k + 1

/-- Source classes are coded 1..8 in the order of R190. -/
def SourceClass.all : List SourceClass := [.mp, .vessel, .turner, .transfer, .station, .trunk, .field, .excise]
def SourceClass.code (k : SourceClass) : Nat := placeOf SourceClass.all k + 1

/-- Reply statuses (Table 11-2). -/
inductive Status where
  | ok | unknownRequest | badArgument | wrongState | notPermitted | noRoom | busy | locked | notReady | exciseFull
  deriving DecidableEq, Repr, Inhabited

def Status.all : List Status :=
  [.ok, .unknownRequest, .badArgument, .wrongState, .notPermitted, .noRoom, .busy, .locked, .notReady, .exciseFull]
def Status.code (x : Status) : Nat := placeOf Status.all x

/-- Refusal reasons (Table 8-4). -/
inductive Reason where
  | unknownStation | mode | interlock | overridePending | superseded | queueFull | stationRejected | noConfirm | origin
  | badCommand
  deriving DecidableEq, Repr, Inhabited

def Reason.all : List Reason :=
  [.unknownStation, .mode, .interlock, .overridePending, .superseded, .queueFull, .stationRejected, .noConfirm, .origin,
   .badCommand]
def Reason.code (x : Reason) : Nat := placeOf Reason.all x + 1

/-- Excise table ids (Table 7-4). -/
abbrev idDrawPlan : Nat := 11
abbrev idSeed : Nat := 12
abbrev idTerminal : Nat := 13
abbrev idCode : Nat := 14

/-- Excise entry kinds (Table 7-3). -/
abbrev kINTAKE : Nat := 1
abbrev kCAST : Nat := 2
abbrev kLOAD : Nat := 3
abbrev kSTRIP : Nat := 4
abbrev kDRAW : Nat := 5
abbrev kSTART : Nat := 6
abbrev kABORTED : Nat := 7
abbrev kABANDON : Nat := 8
abbrev kTABLE : Nat := 9
abbrev kUNLOCK : Nat := 10
abbrev kLOCK : Nat := 11
abbrev kREFUSED : Nat := 12
abbrev kRESTART : Nat := 13

/-- The phase or stage index and the phase state of a vessel, as PHASE and FAULT notices carry them. -/
def State.phaseCode (s : State) (v : Fin 12) : Nat :=
  match vesselIs v with
  | .steep i => (s.steep i).phase.code
  | .comp c => (s.comp c).phase.code
  | .kiln k => (s.kiln k).phase.code

def State.phaseIndex (s : State) (v : Fin 12) : Nat :=
  match vesselIs v with
  | .steep i => (s.steep i).index
  | .comp c => (s.comp c).index
  | .kiln k => (s.kiln k).index

end Sys2Proof.Machine
end

