-- ==== Sys2Proof/Machine/Trunk.lean ====
section
/-! DEFINITION. Machine/Trunk.lean: telegrams, the notice queue with its pending marks, and the transmit arbiter of the
trunk port (R165, R166, R171, R172, R189, R190). -/

namespace Sys2Proof.Machine

/-! ## Telegrams -/

/-- A telegram's bytes (Table 9-1), its check computed over all that stands before it (R166). -/
def telegram (dst src kind seq : Nat) (payload : List Byte) : List Byte :=
  let body := beBytes 1 dst ++ beBytes 1 src ++ beBytes 1 kind ++ beBytes 1 seq ++ beBytes 1 payload.length ++ payload
  body ++ beBytes 2 (crc16 body).toNat

/-- Telegram kinds (Table 9-2). -/
abbrev tSAMPLE : Nat := 1
abbrev tPOLL : Nat := 2
abbrev tCOMMAND : Nat := 3
abbrev tCONFIRM : Nat := 4
abbrev tREFUSAL : Nat := 5
abbrev tNOTICE : Nat := 6
abbrev tREQUEST : Nat := 7
abbrev tREPLY : Nat := 8

/-- A received telegram taken apart: destination, source, kind, sequence and payload. -/
structure Frame where
  dst : Nat
  src : Nat
  kind : Nat
  seq : Nat
  payload : List Byte
  deriving DecidableEq, Repr, Inhabited

/-- The check of a received telegram (R166): the last two bytes received against the check of those before them, wherever the
length field would put the check field; a run of fewer than two bytes fails (DESIGN CHOICE, assumption 79). -/
def checkPasses (bs : List Byte) : Bool :=
  decide (2 ≤ bs.length) &&
    decide ((crc16 (bs.take (bs.length - 2))).toNat = ofBytes (bs.drop (bs.length - 2)))

/-- A well-formed telegram: at least 7 bytes, a length field of 0..48, and 7 plus that many bytes in all (R165). -/
def frameOf (bs : List Byte) : Option Frame :=
  match bs with
  | dst :: src :: kind :: seq :: len :: rest =>
    if len.toNat ≤ 48 ∧ rest.length = len.toNat + 2 then
      some { dst := dst.toNat, src := src.toNat, kind := kind.toNat, seq := seq.toNat, payload := rest.take len.toNat }
    else none
  | _ => none

/-- A NOTICE's payload (Table 11-9). -/
def Notice.payload (n : Notice) : List Byte :=
  beBytes 1 n.kind.code ++ beBytes 1 n.cls.code ++ beBytes 1 n.idx ++ beBytes 1 n.state ++ beBytes 1 n.count ++
    beInt 4 n.value ++ beBytes 4 n.time

/-- A REFUSAL's payload (Table 9-3). -/
def Refused.payload (r : Refused) : List Byte :=
  beBytes 1 r.station ++ beBytes 1 r.code ++ beBytes 1 r.tag ++ beBytes 1 r.reason ++ beBytes 1 r.detail

/-! ## The state of a notice's source at the moment of sending (Table 11-8) -/

/-- The new state of a notice made from a pending mark. A LIMIT notice of a comparator that is SETTLING carries 3, which
Table 11-11 does not list for LIMIT (DESIGN CHOICE, assumption 80). -/
def State.sourceState (s : State) (m : Notice) : Nat :=
  match m.kind with
  | .limit => match (s.live m.idx).comp with
    | some c => c.code
    | none => Level.code .normal
  | .phase => match vesselOf m.idx with
    | some v => if 10 ≤ v.val ∧ m.state = breakCode then m.state else s.phaseCode v
    | none => m.state
  | .mode => match vesselOf m.idx with
    | some v => (s.vessel v).mode.code
    | none => m.state
  | .blind => match vesselOf m.idx with
    | some v => if (s.vessel v).blind then 0 else 1
    | none => m.state
  | .fault => match (vesselOf m.idx).bind fun v => (s.vessel v).fault with
    | some c => c.code
    | none => m.state
  | .station =>
    if m.cls = .trunk then (if s.trunk.lost then 0 else 1)
    else match s.field.health.get m.idx with
      | some h => if h.up then 1 else 0
      | none => m.state
  | .turner => match twoOf m.idx with
    | some t => (s.turner t).state.code
    | none => m.state
  | .transfer => match s.transfer.running with
    | some r => if r.source.val = m.idx then r.state.code else m.state
    | none => m.state
  | .slip | .draw | .excise | .stageLimit | .walkOverrun => m.state

/-- The pending mark with the earliest time; among equal times the one set first (R189). The times are compared as they are
stored, also where the process time has wrapped between them (DESIGN CHOICE, assumption 82). -/
def earliest : List Notice → Option Notice
  | [] => none
  | m :: ms =>
    match earliest ms with
    | some x => if x.time < m.time then some x else some m
    | none => some m

/-- When a notice leaves the queue, the earliest mark becomes a notice at its back (R189). -/
def State.promoteMark (s : State) : State :=
  match earliest s.notices.marks with
  | some m =>
    s.onNotices fun n =>
      { queue := n.queue ++ [{ m with state := s.sourceState m }], marks := n.marks.erase m }
  | none => s

/-! ## The transmit arbiter (R172) -/

/-- The arbiter takes one telegram, from the first source in the order replies, refusals, notices, forwarded samples
that has one ready. A reply, a refusal and a notice carry as source the own station address that is committed at this moment:
R172 fixes the moment for the destination only (DESIGN CHOICE, assumption 97). -/
def State.takeTelegram (s : State) : State :=
  match s.trunk.replies, s.trunk.refusals, s.notices.queue, s.trunk.up with
  | r :: rs, _, _, _ =>
    s.onTrunk fun t => { t with
      replies := rs
      tx := some { origin := .reply r.isReset, bytes := telegram r.dest s.ownAddr tREPLY r.seq r.payload } }
  | [], r :: rs, _, _ =>
    s.onTrunk fun t => { t with
      refusals := rs
      seq := (t.seq + 1) % 256
      tx := some { origin := .refusal, bytes := telegram s.plantAddr s.ownAddr tREFUSAL t.seq r.payload } }
  | [], [], n :: ns, _ =>
    (((s.onNotices fun q => { q with queue := ns }).promoteMark).onTrunk fun t => { t with
      seq := (t.seq + 1) % 256
      tx := some { origin := .notice, bytes := telegram s.plantAddr s.ownAddr tNOTICE t.seq n.payload } })
  | [], [], [], u :: us =>
    s.onTrunk fun t => { t with
      up := us
      tx := some { origin := .sample, bytes := telegram s.plantAddr u.src tSAMPLE u.seq u.payload } }
  | [], [], [], [] => s

/-- An idle transmitter takes a telegram as soon as one is ready (R172). After the reply to PART RESET has been sent
the reset is due, and nothing more is taken (R188). -/
def State.kick (s : State) : State :=
  if s.trunk.tx.isNone && !s.mgmt.resetDue then s.takeTelegram else s

/-! ## Notices -/

/-- A pending mark is set, or the one of this source and kind is raised (R189). -/
def setMark (marks : List Notice) (n : Notice) : List Notice :=
  if marks.any (fun m => m.kind = n.kind ∧ m.cls = n.cls ∧ m.idx = n.idx) then
    marks.map fun m =>
      if m.kind = n.kind ∧ m.cls = n.cls ∧ m.idx = n.idx then
        { m with count := satAdd 255 m.count 1, state := n.state, value := n.value }
      else m
  else marks ++ [n]

/-- A block posts a notice (R189): it joins the queue, or sets or raises a pending mark where the queue is full. -/
def State.post (s : State) (kind : NoticeKind) (cls : SourceClass) (idx state : Nat) (value : Int) : State :=
  let n : Notice := { kind, cls, idx, state, count := 1, value, time := s.timeNow }
  if s.notices.queue.length < 32 then
    (s.onNotices fun q => { q with queue := q.queue ++ [n] }).kick
  else s.onNotices fun q => { q with marks := setMark q.marks n }

/-- A notice with source class VESSEL. -/
def State.postVessel (s : State) (kind : NoticeKind) (v : Fin 12) (state : Nat) (value : Int) : State :=
  s.post kind .vessel v.val state value

/-- An EXCISE notice: source class EXCISE, index 0. -/
def State.postExcise (s : State) (state : Nat) (value : Int) : State := s.post .excise .excise 0 state value

/-! ## Refusals, forwarded samples and replies -/

/-- A refusal joins the refusal list, or is dropped and counted where it holds 16 (R172). -/
def State.refuse (s : State) (station code tag : Nat) (reason : Reason) (detail : Nat) : State :=
  if s.trunk.refusals.length < 16 then
    (s.onTrunk fun t => { t with
      refusals := t.refusals ++ [{ station, code, tag, reason := reason.code, detail }] }).kick
  else s.onTrunk fun t => { t with refusalLoss := satAdd max16 t.refusalLoss 1 }

/-- A forwarded sample joins the up-queue, or is dropped and counted where it holds 32 (R171). -/
def State.forward (s : State) (u : UpSample) : State :=
  if s.trunk.up.length < 32 then (s.onTrunk fun t => { t with up := t.up ++ [u] }).kick
  else s.onTrunk fun t => { t with drops := satAdd max16 t.drops 1 }

/-- Reply places in use: held by requests in progress, by ready replies, and by the reply being sent (R168, R172). -/
def Trunk.placesUsed (t : Trunk) : Nat :=
  t.held + t.replies.length + (match t.tx with
    | some { origin := .reply _, .. } => 1
    | _ => 0)

/-- Bytes of a result, none standing for a byte the manual does not give (assumption 4). -/
abbrev ResultBytes := List (Option Byte)

/-- The result's bytes, the open ones at their free values. -/
def fillFrom (draw : Nat) : Nat → ResultBytes → List Byte
  | _, [] => []
  | i, some b :: r => b :: fillFrom draw (i + 1) r
  | i, none :: r => Config.absentByte draw i :: fillFrom draw (i + 1) r

/-- A reply is formed (Table 11-1): the place held for its request passes to it, and it is ready to be sent. -/
def State.formReply (s : State) (dest seq cls code : Nat) (st : Status) (detail : Nat) (result : ResultBytes)
    (isReset : Bool) : State :=
  let payload := beBytes 1 cls ++ beBytes 1 code ++ beBytes 1 st.code ++ beBytes 1 detail ++ fillFrom s.draws 0 result
  let s1 := if result.any (·.isNone) then { s with draws := s.draws + 1 } else s
  (s1.onTrunk fun t => { t with
    held := t.held - 1
    replies := t.replies ++ [{ dest, seq, payload, isReset }] }).kick

/-- The reply to the long request that an originator has in progress, which it ends (R183). PART RESET stays in
progress until its reply has been sent. -/
def State.endLong (s : State) (o : Originator) (st : Status) (detail : Nat) : State :=
  match (match o with
    | .plant => s.mgmt.plant
    | .excise => s.mgmt.excise) with
  | some p =>
    (s.onMgmt fun m => match o with
      | .plant => { m with plant := none }
      | .excise => { m with excise := none }).formReply p.src p.seq p.cls p.code st detail [] false
  | none => s

end Sys2Proof.Machine
end

