-- ==== Sys2Proof/Machine/Excise.lean ====
section
/-! DEFINITION. Machine/Excise.lean: the excise register, its space, the pending marks, the store writes and the draw
plan (R135 to R143, R147, R148), and the relock of R150. -/

namespace Sys2Proof.Machine

/-! ## Space (R140, R142) -/

/-- Free space: slots that may be written without overwriting an entry not exported; 0 in STORE_FAULT (R140). -/
def Excise.free (e : Excise) : Nat :=
  if e.storeFault then 0 else 512 - (e.now.next - 1 - e.now.exported)

/-- Available space: free space minus the reservation count (R140), and 0 where that would lie below 0, as in STORE_FAULT with
a reservation still held (DESIGN CHOICE, assumption 70). -/
def Excise.avail (e : Excise) : Nat := e.free - e.now.reservation

/-- The draw count of the committed draw plan for a transfer kind (Table 7-5). -/
def Excise.drawCount (e : Excise) (k : TransferKind) : Nat :=
  match k with
  | .cast => e.now.tables.castDraws
  | .load => e.now.tables.loadDraws
  | .strip => e.now.tables.stripDraws

/-- Whether a transfer of a kind could start: n + 2 entries and the reserve of 8 are left (R142). -/
def Excise.canStart (e : Excise) (k : TransferKind) : Bool := decide (e.drawCount k + 2 + 8 ≤ e.avail)

/-! ## Entries (R137 to R139) -/

/-- The first 28 bytes of an entry (Table 7-2). -/
def Entry.head (e : Entry) : List Byte :=
  beBytes 4 e.number ++ beBytes 1 e.kind ++ beBytes 1 e.flags ++ beBytes 1 e.vessel ++ beBytes 1 e.draw ++
    beBytes 2 e.batch ++ beBytes 2 e.day ++ beBytes 4 e.second ++ beBytes 4 e.quantity ++ beBytes 4 e.computed ++
    beBytes 1 e.a0 ++ beBytes 1 e.a1 ++ beBytes 1 e.a2 ++ beBytes 1 e.a3

/-- The 32 bytes of an entry as it stands in the store and as EXCISE READ ENTRY returns it (Table 7-2). -/
def Entry.bytes (e : Entry) : List Byte := e.head ++ beBytes 4 e.chain.toNat

/-- LATE, DEVIATION and TIME_NOT_SET (Table 7-2). -/
abbrev fLATE : Nat := 1
abbrev fDEVIATION : Nat := 2
abbrev fNOTIME : Nat := 4

/-- The slot of entry number n (R137). -/
def slotOf (n : Nat) : Nat := (n - 1) % 512

/-- The unit enters STORE_FAULT (R136): no more writes, a waiting excise request is answered NOT_READY at once, the
EXCISE notice is posted, and a running transfer is to abort. The notice is posted before the reply is formed (DESIGN CHOICE,
assumption 38). -/
def State.enterStoreFault (s : State) : State :=
  if s.excise.storeFault then s
  else
    let waits := s.excise.jobs.any (·.reply)
    let s1 := s.onExcise fun e => { e with storeFault := true, jobs := [], fresh := [] }
    let s2 := s1.postExcise storeFaultCode 0
    let s3 := if waits then s2.endLong .excise .notReady 0 else s2
    s3.emit .storeFault

/-- The entry e as it is taken now: the next number, plant time or TIME_NOT_SET, and the chain check (R137 to R139). -/
def State.stampEntry (s : State) (e : Entry) : Entry :=
  let t : Entry := match s.clock.plant with
    | some p => { e with number := s.excise.now.next, day := p.day, second := p.second }
    | none => { e with number := s.excise.now.next, day := 0, second := 0, flags := e.flags + fNOTIME }
  { t with chain := crc32 s.excise.now.chain t.head }

/-- The excise unit writes an entry: it takes the next number and goes into its slot (R137), and its check becomes the
chain value (R139). The number 4,294,967,295 is the last: with it given, the unit enters STORE_FAULT, the next number stands,
the entry is not made durable, and its bytes and its check stand in the volatile slot and chain value that are read there
(DESIGN CHOICE, assumption 39). -/
def State.writeEntry (s : State) (e : Entry) : State :=
  if s.excise.storeFault then s
  else
    let x := s.stampEntry e
    let s1 := s.onExcise fun u => { u with
      now := { u.now with next := min max32 (x.number + 1), chain := x.chain }
      slots := u.slots.put (slotOf x.number) x
      fresh := u.fresh ++ [x] }
    if max32 ≤ x.number then s1.enterStoreFault else s1

/-- A transfer entry takes one entry of the running transfer's reservation (R142). -/
def State.writeTransferEntry (s : State) (e : Entry) : State :=
  if s.excise.storeFault then s
  else
    (s.onExcise fun u => { u with now := { u.now with reservation := u.now.reservation - 1 } }).writeEntry e

/-- The event the unit has taken is closed by a counters copy that carries it (R136). In STORE_FAULT nothing is
written. -/
def State.closeEvent (s : State) (reply : Bool) : State :=
  s.onExcise fun e =>
    if e.storeFault then { e with fresh := [] }
    else { e with jobs := e.jobs ++ [{ entries := e.fresh, counters := e.now, reply }], fresh := [] }

/-- The EXCISE notice FULL of a refusal for space or of a pending mark set (R141). -/
def State.postFull (s : State) : State := s.postExcise fullCode s.excise.free

/-! ## Pending marks (R143) -/

def restartEntry (m : RestartMark) : Entry :=
  { number := 0, kind := kRESTART, computed := m.openNo, a0 := m.cause.code, a1 := m.further }

def lockEntry (c : RelockCause) : Entry := { number := 0, kind := kLOCK, a0 := c.code }

/-- The pending RESTART mark is written while available space allows. -/
def State.writeRestartMark (s : State) : State :=
  match s.excise.now.restart with
  | some m =>
    if 1 ≤ s.excise.avail then
      (s.onExcise fun e => { e with now := { e.now with restart := none } }).writeEntry (restartEntry m)
    else s
  | none => s

/-- The pending LOCK mark is written while available space allows. -/
def State.writeLockMark (s : State) : State :=
  match s.excise.pendingLock with
  | some c =>
    if 1 ≤ s.excise.avail then (s.onExcise fun e => { e with pendingLock := none }).writeEntry (lockEntry c) else s
  | none => s

/-- Where available space has risen, the pending marks are written: the RESTART entry first, then the LOCK entry. -/
def State.writeMarks (s : State) : State := s.writeRestartMark.writeLockMark

/-- A LOCK entry is written, or held as the pending LOCK mark (R141, R143). -/
def State.writeLock (s : State) (c : RelockCause) : State :=
  if 1 ≤ s.excise.avail then s.writeEntry (lockEntry c)
  else match s.excise.pendingLock with
    | some _ => s
    | none => (s.onExcise fun e => { e with pendingLock := some c }).postFull

/-- A relock by request or by idle expiry (R150). It is closed by a counters copy also where its LOCK is held pending, which
changes nothing in the store (DESIGN CHOICE, assumption 103). -/
def State.relock (s : State) (c : RelockCause) : State :=
  let s1 := s.onExcise fun e => { e with lock := .locked, idle := none, staged := e.now.tables }
  ((s1.writeLock c).closeEvent false).postExcise (LockState.code .locked) c.code

/-! ## Reservation (R142) -/

/-- A transfer starts: n + 2 entries are held for it. -/
def State.reserveEntries (s : State) (n : Nat) : State :=
  s.onExcise fun e => { e with now := { e.now with reservation := e.now.reservation + (n + 2) } }

/-- The end of a transfer: what is still held is released and no transfer is open; a rise of available space writes the
pending marks (R142, R143). -/
def State.releaseEntries (s : State) : State :=
  (s.onExcise fun e => { e with now := { e.now with reservation := 0, openNo := 0 } }).writeMarks

/-! ## The draw plan (R148) -/

/-- The selection generator's advance. -/
def genNext (x : Nat) : Nat := (x * 25173 + 13849) % 65536

/-- The draw points k, k+1, ... of a plan of n points along E, and the generator state after them. left is the number
of points still to place. -/
def planFrom (expected n : Nat) : Nat → Nat → Nat → List Nat × Nat
  | 0, _, x => ([], x)
  | left + 1, k, x =>
    let x' := genNext x
    let p := expected * (256 * k + x' / 256) / (256 * n)
    let r := planFrom expected n left (k + 1) x'
    (p :: r.1, r.2)

/-- The n draw points along E from generator state x, and the state after them. -/
def planDraws (expected n x : Nat) : List Nat × Nat := planFrom expected n n 0 x

/-! ## Store writes (R136) -/

/-- The sequence number of a copy, where it is present with a good check. -/
def copySeq (c : Option Copy) : Option Nat := c.bind fun x => if x.good then some x.seq else none

/-- The copy a start-up takes: the higher sequence number among those whose check is good (R136). -/
def NvStore.best (n : NvStore) : Option Copy :=
  match n.copyA, n.copyB with
  | some a, some b =>
    if a.good ∧ b.good then (if a.seq < b.seq then some b else some a)
    else if a.good then some a else if b.good then some b else none
  | some a, none => if a.good then some a else none
  | none, some b => if b.good then some b else none
  | none, none => none

/-- The next counters copy is written over copy A: copy B holds the newest good one. The copies are written
alternately, so the newest good copy is never the one written over. -/
def NvStore.writesA (n : NvStore) : Bool :=
  match copySeq n.copyA, copySeq n.copyB with
  | some a, some b => decide (a < b)
  | some _, none => false
  | none, _ => true

/-- A counters copy over the copy whose turn it is. -/
def NvStore.putCopy (n : NvStore) (c : Copy) : NvStore :=
  if n.writesA then { n with copyA := some c } else { n with copyB := some c }

/-- The sequence number of the next copy, one more than the newest good one's, without a bound (DESIGN CHOICE, assumption 40). -/
def NvStore.nextSeq (n : NvStore) : Nat := match n.best with
  | some c => c.seq + 1
  | none => 0

/-- The entries of a job, each into its slot. -/
def putEntries (t : Tbl Entry) (es : List Entry) : Tbl Entry := es.foldl (fun t e => t.put (slotOf e.number) e) t

/-- The oldest job is written: its entries into their slots, then the counters copy that closes it. -/
def NvStore.writeJob (n : NvStore) (j : WriteJob) : NvStore :=
  let m := { n with slots := putEntries n.slots j.entries }
  m.putCopy { seq := m.nextSeq, good := true, counters := j.counters }

end Sys2Proof.Machine
end

