-- ==== Sys2Proof/Machine/Account.lean ====
section
/-! DEFINITION. Machine/Account.lean: the moisture account of a batch and the drying integrators (R6 to R9, R12 to
R16). -/

namespace Sys2Proof.Machine

/-- The ceiling of the water mass, in grams. -/
abbrev waterCeiling : Nat := 50000000

/-- M = floor(W x 10000 / (D + W)) (R7). -/
def moistureOf (dry water : Nat) : Nat := water * 10000 / (dry + water)

/-- The account with a new water mass and remainder; M follows (R7). -/
def Account.rebase (a : Account) (water rem : Nat) : Account :=
  { a with water, rem, moisture := moistureOf a.dry water }

/-- The account at BATCH START STEEP, for a grain mass in kg and an intake moisture (R6). -/
def Account.intakeOf (kg m0 : Nat) : Account :=
  let i := kg * 1000
  let d := i * (10000 - m0) / 10000
  { intake := i, dry := d, water := i - d, rem := 0, moisture := moistureOf d (i - d) }

/-- A rest weighing of g grams re-bases the account (R8). -/
def Batch.weigh (b : Batch) (g : Int) : Batch :=
  match b.acct with
  | some a =>
    if g < a.dry then
      { b with acct := some (a.rebase 0 0), marks := { b.marks with waterFloor := true } }
    else if (waterCeiling : Int) < g - a.dry then
      { b with acct := some (a.rebase waterCeiling 0), marks := { b.marks with waterCeiling := true } }
    else { b with acct := some (a.rebase (g - a.dry).toNat 0) }
  | none => b

/-- A sprinkle of l litres, l above 0, is credited (R9). -/
def Batch.sprinkle (b : Batch) (l : Nat) : Batch :=
  match b.acct with
  | some a =>
    let sum := a.water + l * 1000
    { b with
      acct := some (a.rebase (min sum waterCeiling) a.rem)
      marks := if waterCeiling < sum then { b.marks with waterCeiling := true } else b.marks
      litres := satAdd max32 b.litres l }
  | none => b

/-- A drying step, from the rise dh (at least 0), the fan flow q and dt tenths (R16). A negative flow reading would add
water: the formula is kept, and W is held at its ceiling (R7; DESIGN CHOICE, assumption 8). -/
def Batch.dry (b : Batch) (q dh : Int) (dt : Nat) : Batch :=
  match b.acct with
  | some a =>
    let n := q * dh * (dt : Int) + a.rem
    let e := n / 6000
    if e ≤ a.water then
      { b with acct := some (a.rebase (min waterCeiling ((a.water : Int) - e).toNat) (n % 6000).toNat) }
    else { b with acct := some (a.rebase 0 0), marks := { b.marks with waterFloor := true } }
  | none => b

/-- The batch unit takes a rest weighing of g grams for a batch in STEEPING (R8). -/
def State.restWeighing (s : State) (v : Fin 12) (g : Int) : State :=
  match s.batchAt v with
  | some (n, b) => if b.state = .steeping then s.onSlot n (·.weigh g) else s
  | none => s

/-- The filter's report of a confirmed SPRINKLE of l litres, for a compartment whose batch is GERMINATING (R9). -/
def State.creditSprinkle (s : State) (v : Fin 12) (l : Int) : State :=
  match s.batchAt v with
  | some (n, b) => if b.state = .germinating ∧ 0 < l then s.onSlot n (·.sprinkle l.toNat) else s
  | none => s

/-- The integrator of a vessel, where it has one (R12). -/
def State.integ (s : State) (v : Fin 12) : Option Integrator := (integNo v).map fun i => bank s.batch.integ i

def State.onInteg (s : State) (v : Fin 12) (f : Integrator → Integrator) : State :=
  match integNo v with
  | some i => s.onBatch fun b => { b with integ := onBank b.integ i f }
  | none => s

/-- The integrator is cleared (R12). -/
def State.clearInteg (s : State) (v : Fin 12) : State := s.onInteg v fun _ => {}

/-- A step is attempted for a batch drying in this vessel: GERMINATING in a compartment, KILNING in a kiln (R13). -/
def State.dryingAt (s : State) (v : Fin 12) : Option (Nat × Batch) :=
  match vesselIs v, s.batchAt v with
  | .comp _, some (n, b) => if b.state = .germinating then some (n, b) else none
  | .kiln _, some (n, b) => if b.state = .kilning then some (n, b) else none
  | _, _ => none

/-- The elapsed time of a later attempt, clamped to 1..600, and whether it costs a gap (R14). -/
def stepTime (now last : Nat) : Nat × Bool :=
  let d := elapsed now last
  if 600 < d then (600, true) else if d = 0 then (1, false) else (d, false)

/-- An air-off humidity sample attempts a drying step (R13 to R16). -/
def State.dryAttempt (s : State) (v : Fin 12) (hOff : Int) : State :=
  match s.dryingAt v, s.integ v with
  | some (n, _), some g =>
    match g.last with
    | none => s.onInteg v fun g => { g with last := some s.timeNow }
    | some t =>
      let dt := stepTime s.timeNow t
      let s1 := s.onInteg v fun g => { g with last := some s.timeNow }
      let s2 := if dt.2 then s1.onSlot n fun b => { b with gaps := satAdd max16 b.gaps 1 } else s1
      match s2.usableRole (.vessel v) .airOnHumidity, s2.usableRole (.vessel v) .fanFlow with
      | some hOn, some q =>
        (s2.onSlot n fun b => b.dry q (max 0 (hOff - hOn)) dt.1).onInteg v fun g =>
          { g with steps := satAdd max16 g.steps 1 }
      | _, _ =>
        (s2.onSlot n fun b => { b with gaps := satAdd max16 b.gaps 1 }).onInteg v fun g =>
          { g with skipped := satAdd max16 g.skipped 1 }
  | _, _ => s

/-- Whether an attempt now would compute a step, so that M is handed over even where W does not change (R15, R17). -/
def State.dryComputes (s : State) (v : Fin 12) : Bool :=
  (s.dryingAt v).isSome && ((s.integ v).bind (·.last)).isSome &&
    (s.usableRole (.vessel v) .airOnHumidity).isSome && (s.usableRole (.vessel v) .fanFlow).isSome

end Sys2Proof.Machine
end

