-- ==== Sys2Proof/Machine/Filter.lean ====
section
/-! DEFINITION. Machine/Filter.lean: the command filter (chapter 8): the checks of an offer, the interlock table, the
command queue and the waiting list, delivery and confirmation. -/

namespace Sys2Proof.Machine

def allVessels : List (Fin 12) := [0, 1, 2, 3, 4, 5, 6, 7, 8, 9, 10, 11]
def allKilns : List (Fin 2) := [0, 1]

/-! ## The owner vessel of a station (R152) -/

/-- The stations that a vessel's committed entry names in the fields of Tables 3-3, 4-1 and 5-1. -/
def VesselTable.stationsOf (t : VesselTable) (v : Fin 12) : List Nat :=
  match vesselIs v with
  | .steep i => match t.steeps.get i.val with
    | some c => [c.fill, c.drain, c.fan] ++ c.water.toList ++ c.aerate.toList
    | none => []
  | .comp i => match t.comps.get i.val with
    | some c => [c.air, c.fan] ++ c.sprinkler.toList
    | none => []
  | .kiln i => match t.kilns.get i.val with
    | some c => [c.air, c.fan, c.burner] ++ c.peat.toList
    | none => []

/-- The vessel that owns an MP, where a vessel does. -/
def MpEntry.vesselOwner (e : MpEntry) : Option (Fin 12) := match e.owner with
  | .vessel v => some v
  | _ => none

/-- The owner vessel of a station: the lowest-numbered vessel whose entry names it, else the owner of the
lowest-numbered MP on it that a vessel owns; the broadcast address has none (R152). -/
def Tables.stationOwner (t : Tables) (st : Nat) : Option (Fin 12) :=
  if st = 0 then none
  else match allVessels.find? (fun v => (t.vessel.stationsOf v).contains st) with
    | some v => some v
    | none => (t.mp.find? fun e => e.2.station = st ∧ e.2.vesselOwner.isSome).bind fun e => e.2.vesselOwner

/-! ## The checks (R153, R154, R156) -/

/-- The mode check of Table 8-1. -/
def modePasses (m : Mode) (o : Origin) : Bool :=
  match m, o with
  | .off, _ => false
  | .manual, .plant => true
  | .manual, .sequencer => false
  | .auto, .plant => false
  | .auto, .sequencer => true
  | .hold, .plant => false
  | .hold, .sequencer => false
  | .manual, .override => true
  | .auto, .override => true
  | .hold, .override => true

/-- SETPOINT and DUTY_CAP, the codes the kiln guard narrows. -/
def dutyCode (code : Nat) : Bool := code = cSETPOINT || code = cDUTYCAP

/-- The caps that bind a station as a kiln's burner, narrowing an argument to 0..c (R154). -/
def State.burnerGuard (s : State) (station code : Nat) (arg : Int) : Int :=
  allKilns.foldl (fun a k =>
    match s.kilnCfg k with
    | some c => if c.burner = station ∧ dutyCode code then narrow 0 (s.kiln k).cap a else a
    | none => a) arg

/-- A RUN to a station that is the peat feeder of a kiln whose gate is shut (R154). -/
def State.peatShut (s : State) (station code : Nat) : Bool :=
  code = cRUN && allKilns.any fun k =>
    match s.kilnCfg k with
    | some c => c.peat = some station && !(s.kiln k).gate
    | none => false

/-- The state of the running transfer that touches a vessel, or none (R134). -/
def State.transferTouching (s : State) (v : Fin 12) : Option TransferState :=
  s.transfer.running.bind fun r => if r.source = v ∨ r.dest.val = v.val then some r.state else none

/-- Whether a condition holds now, with its sense (R156). -/
def State.condHolds (s : State) (c : Condition) (is : Bool) : Bool :=
  match c with
  | .always => true
  | .comparator o r n => match (s.mpOf o r).bind fun m => (s.live m).comp with
    | some x => decide (x.name = n) == is
    | none => false
  | .status o r st => match s.mpOf o r with
    | some m => decide ((s.live m).status = st) == is
    | none => false
  | .phase v code => decide (s.phaseCode v = code) == is
  | .turner t st => decide ((s.turner t).state = st) == is
  | .transfer v st => decide (s.transferTouching v = st) == is

/-- An entry's origin set holds an origin. -/
def Interlock.covers (e : Interlock) (o : Origin) : Bool := match o with
  | .plant => e.onPlant
  | .sequencer => e.onSequencer
  | .override => e.onOverride

/-- An entry applies to an offer (R156). -/
def State.applies (s : State) (e : Interlock) (o : Offer) : Bool :=
  e.station = o.station && (e.code = none || e.code = some o.code) && e.covers o.origin && s.condHolds e.cond e.is

/-- The walk over the interlock entries in index order, from the argument as it stands and the CLAMP_TO_CAP entries
that have applied: the refusing entry's index, or the argument and the record at the end (R156). -/
def State.interlockWalk (s : State) (o : Offer) : Tbl Interlock → Int → List (Fin 2 × Nat) →
    Except Nat (Int × List (Fin 2 × Nat))
  | [], arg, caps => .ok (arg, caps)
  | (i, e) :: t, arg, caps =>
    if s.applies e o then
      match e.action with
      | .refuse => .error i
      | .clamp lo hi => s.interlockWalk o t (narrow lo hi arg) caps
      | .clampToCap k =>
        if o.code = cRUN ∧ !(s.kiln k).gate then .error i
        else s.interlockWalk o t (if dutyCode o.code then narrow 0 (s.kiln k).cap arg else arg) (caps ++ [(k, i)])
    else s.interlockWalk o t arg caps

/-- The checks of R153 to R156: a reason and detail, or the entry that goes on to placement. -/
def State.checkOffer (s : State) (o : Offer) : Except (Reason × Nat) QEntry :=
  if o.code < 1 ∨ 12 < o.code ∨ (o.station = 0 ∧ o.code ≠ cSTOP ∧ o.code ≠ cCLOSE) then .error (.badCommand, 0)
  else if o.station ≠ 0 ∧ (s.tables.station.get o.station).isNone then .error (.unknownStation, 0)
  else
    let owner := s.tables.stationOwner o.station
    if (match owner with
        | some v => modePasses (s.vessel v).mode o.origin
        | none => true) = false then .error (.mode, 0)
    else if s.peatShut o.station o.code then .error (.interlock, 255)
    else match s.interlockWalk o s.tables.interlock (s.burnerGuard o.station o.code o.arg) [] with
      | .error i => .error (.interlock, i)
      | .ok (arg, caps) => .ok { offer := { o with arg }, owner, caps }

/-! ## Reports -/

/-- A block is told what became of its command; the plant controller is told by refusals alone. -/
def State.tell (s : State) (a : Answer) (r : Report) (code : Nat) : State :=
  match a with
  | .plant _ => s
  | .block p serial => s.emit (.report r p serial code)

/-- A PLANT command is answered with a refusal; a block's command is reported (R157, R158, R160 to R162). -/
def State.answer (s : State) (a : Answer) (station code : Nat) (reason : Reason) (detail : Nat) (r : Report) : State :=
  match a with
  | .plant tag => s.refuse station code tag reason detail
  | .block _ _ => s.tell a r code

/-- An offer refused (R157): counted, and answered by its origin. -/
def State.refuseOffer (s : State) (o : Offer) (reason : Reason) (detail : Nat) : State :=
  (s.onFilter fun f => { f with refused := satAdd max16 f.refused 1 }).answer o.answer o.station o.code reason detail
    .failed

/-! ## The command queue (R158) and the waiting list (R159) -/

/-- Entries of a key: the queue never holds two. -/
def QEntry.keyed (e : QEntry) (station code : Nat) : Bool := e.offer.station = station && e.offer.code = code

def Filter.entry (f : Filter) (station code : Nat) : Option QEntry := f.queue.find? (·.keyed station code)

def State.onEntry (s : State) (station code : Nat) (g : QEntry → QEntry) : State :=
  s.onFilter fun f => { f with queue := f.queue.map fun e => if e.keyed station code then g e else e }

/-- An entry leaves the queue. -/
def State.dropEntry (s : State) (station code : Nat) : State :=
  s.onFilter fun f => { f with queue := f.queue.filter fun e => !e.keyed station code }

def Filter.plantCount (f : Filter) : Nat := (f.queue.filter fun e => e.offer.origin = .plant).length

/-- The new offer replaces the queued entry in place. The earlier command is answered SUPERSEDED or reported withdrawn,
but where it is out in the window it keeps its own outcome (R158). -/
def State.replaceEntry (s : State) (old new : QEntry) : State :=
  let s1 := s.onEntry old.offer.station old.offer.code fun e =>
    { new with tries := 0, flight := e.flight.map fun x => { x with replaced := true } }
  match old.flight with
  | some x =>
    if x.replaced then
      s1.answer old.offer.answer old.offer.station old.offer.code .superseded 0 .withdrawn
    else s1
  | none => s1.answer old.offer.answer old.offer.station old.offer.code .superseded 0 .withdrawn

/-- A checked offer is placed, or answered, or left over for the waiting list: the flag is false then (R158). -/
def State.place (s : State) (e : QEntry) : State × Bool :=
  match s.filter.entry e.offer.station e.offer.code with
  | some old =>
    if old.offer.origin = .override ∧ e.offer.origin ≠ .override then
      if e.offer.origin = .plant then (s.refuseOffer e.offer .overridePending 0, true) else (s, false)
    else if e.offer.origin = .plant ∧ old.offer.origin ≠ .plant ∧ 12 ≤ s.filter.plantCount then
      (s.refuseOffer e.offer .queueFull 0, true)
    else (s.replaceEntry old e, true)
  | none =>
    if e.offer.origin = .plant then
      if s.filter.queue.length < 16 ∧ s.filter.plantCount < 12 then
        (s.onFilter fun f => { f with queue := f.queue ++ [e] }, true)
      else (s.refuseOffer e.offer .queueFull 0, true)
    else if s.filter.queue.length < 16 then (s.onFilter fun f => { f with queue := f.queue ++ [e] }, true)
    else (s, false)

/-- The offering blocks in the order steep sequencer, germination sequencer, kiln sequencer, transfer run (R159). -/
def Answer.block? (a : Answer) : Option Nat :=
  match a with
  | .plant _ => none
  | .block (.vessel v) _ => match vesselIs v with
    | .steep _ => some 0
    | .comp _ => some 1
    | .kiln _ => some 2
  | .block (.drive _) _ => some 1
  | .block _ _ => some 3

/-- A waiting offer for the same station and code from the same block as o. -/
def WEntry.rivals (w : WEntry) (o : Offer) : Bool :=
  w.offer.station = o.station && w.offer.code = o.code && w.offer.answer.block? = o.answer.block?

/-- Oldest first; among offers first made at the same moment, in the order of the blocks (R159). -/
def insertWaiting : List WEntry → WEntry → List WEntry
  | [], x => [x]
  | w :: ws, x =>
    if w.since = x.since ∧ x.offer.answer.block?.getD 0 < w.offer.answer.block?.getD 0 then x :: w :: ws
    else w :: insertWaiting ws x

/-- An offer joins the waiting list, or takes the place of an older one of its block for the same station and code,
which is reported withdrawn (R159). The newer one keeps the time at which the older was first offered (DESIGN CHOICE,
assumption 78). -/
def State.joinWaiting (s : State) (o : Offer) : State :=
  match s.filter.waiting.find? (·.rivals o) with
  | some w =>
    (s.onFilter fun f => { f with
      waiting := f.waiting.map fun x => if x.rivals o then { x with offer := o } else x }).tell w.offer.answer
        .withdrawn w.offer.code
  | none => s.onFilter fun f => { f with waiting := insertWaiting f.waiting { offer := o, since := s.timeNow } }

/-- A newer offer of the same block that found a place leaves no older one waiting (R159; DEDUCED, assumption 9). -/
def State.dropRivals (s : State) (o : Offer) : State :=
  match s.filter.waiting.find? (·.rivals o) with
  | some w =>
    (s.onFilter fun f => { f with waiting := f.waiting.filter fun x => !x.rivals o }).tell w.offer.answer .withdrawn
      w.offer.code
  | none => s

/-- An offer is taken whole, from its checks to its placement or refusal (R151). -/
def State.offer (s : State) (o : Offer) : State :=
  match s.checkOffer o with
  | .error (r, d) => s.refuseOffer o r d
  | .ok e =>
    let p := s.place e
    if o.origin = .plant then p.1 else if p.2 then p.1.dropRivals o else p.1.joinWaiting o

/-- A waiting offer is offered again, through all checks: it leaves the list unless it still cannot be placed (R159). -/
def State.reofferOne (s : State) (w : WEntry) : State :=
  match s.checkOffer w.offer with
  | .error (r, d) => s.refuseOffer w.offer r d
  | .ok e =>
    let p := s.place e
    if p.2 then p.1 else p.1.onFilter fun f => { f with waiting := f.waiting ++ [w] }

/-- An entry has left the queue: the waiting offers are taken once each, oldest first (R159). -/
def State.reoffer (s : State) : State :=
  s.filter.waiting.foldl (fun s w => s.reofferOne w) (s.onFilter fun f => { f with waiting := [] })

/-- A block discards its own waiting SEQUENCER offers of a vessel; they are reported to no one (R57, R68, R113). -/
def State.discardWaiting (s : State) (v : Fin 12) : State :=
  s.onFilter fun f => { f with
    waiting := f.waiting.filter fun w => match w.offer.answer with
      | .block (.vessel u) _ => !(decide (u = v) && decide (w.offer.origin = .sequencer))
      | _ => true }

/-! ## Offers of the part's own blocks -/

/-- A block's offer. An argument that the code does not use is free (Table 9-4; assumption 3). -/
def State.blockOffer (s : State) (origin : Origin) (p : Purpose) (station code : Nat) (arg : Option Int) : State :=
  let n := s.filter.serial
  (s.onFilter fun f => { f with serial := n + 1 }).offer
    { station, code, arg := arg.getD (Config.unusedArg n).toInt, origin, answer := .block p n }

/-- An offer whose code uses no argument. -/
def State.send (s : State) (origin : Origin) (p : Purpose) (station code : Nat) : State :=
  s.blockOffer origin p station code none

/-- An offer with its argument. -/
def State.sendArg (s : State) (origin : Origin) (p : Purpose) (station code : Nat) (arg : Int) : State :=
  s.blockOffer origin p station code (some arg)

/-- An offer to an optional station: where it is absent, the command is not offered (R47, R61, R89). -/
def State.sendTo (s : State) (origin : Origin) (p : Purpose) (station : Option Nat) (code : Nat) : State :=
  match station with
  | some st => s.send origin p st code
  | none => s

def State.sendArgTo (s : State) (origin : Origin) (p : Purpose) (station : Option Nat) (code : Nat) (arg : Int) : State :=
  match station with
  | some st => s.sendArg origin p st code arg
  | none => s

/-! ## Delivery (R160) -/

/-- The tag an entry would carry, with the delivery tag as it then stands. -/
def QEntry.tagWith (e : QEntry) (tag : Nat) : Nat := match e.offer.answer with
  | .plant t => t
  | .block _ _ => tag

/-- The tag after an entry has been prepared: a block's entry takes the delivery tag. -/
def QEntry.tagAfter (e : QEntry) (tag : Nat) : Nat := match e.offer.answer with
  | .plant _ => tag
  | .block _ _ => (tag + 1) % 256

/-- The entries chosen for a window, at most n, oldest first among those not in flight; an entry is passed over where
one already chosen has its station and would carry its tag (R160). -/
def chooseEntries : List QEntry → Nat → Nat → List (Nat × Nat) → List (Nat × Nat)
  | [], _, _, _ => []
  | _ :: _, 0, _, _ => []
  | e :: es, n + 1, tag, taken =>
    if e.flight.isSome ∨ (e.offer.station, e.tagWith tag) ∈ taken then chooseEntries es (n + 1) tag taken
    else (e.offer.station, e.offer.code) ::
      chooseEntries es n (e.tagAfter tag) (taken ++ [(e.offer.station, e.tagWith tag)])

/-- The argument as delivered: narrowed again to the cap of the station's kiln and of each recorded kiln (R160). It is
computed from the queued argument in each window anew (DESIGN CHOICE, assumption 75). -/
def State.deliveredArg (s : State) (e : QEntry) : Int :=
  let a := s.burnerGuard e.offer.station e.offer.code e.offer.arg
  if dutyCode e.offer.code then e.caps.foldl (fun a c => narrow 0 (s.kiln c.1).cap a) a else a

/-- The detail of a RUN that the guard now refuses: 255 where the station's own kiln's gate is shut, else the lowest
recorded entry index whose kiln's gate is shut; none where it is delivered (R160). -/
def State.runRefused (s : State) (e : QEntry) : Option Nat :=
  if e.offer.code ≠ cRUN then none
  else if s.peatShut e.offer.station e.offer.code then some 255
  else ((e.caps.filter fun c => !(s.kiln c.1).gate).map (·.2)).min?

/-- A chosen entry is prepared (R160): tag, guard, then in flight or, for a broadcast, gone. The narrowed argument stands in
the in-flight mark alone, and the entry keeps its queued argument for a re-delivery (DESIGN CHOICE, assumption 75). -/
def State.prepare (s : State) (station code : Nat) : State × Option SendCmd :=
  match s.filter.entry station code with
  | none => (s, none)
  | some e =>
    let tag := e.tagWith s.filter.tag
    let s1 := s.onFilter fun f => { f with tag := e.tagAfter f.tag }
    match s1.runRefused e with
    | some d =>
      (((s1.dropEntry station code).answer e.offer.answer station code .interlock d .withdrawn).reoffer, none)
    | none =>
      let arg := s1.deliveredArg e
      let cmd : SendCmd := { station, code, arg, tag }
      if station = 0 then (((s1.dropEntry station code).tell e.offer.answer .delivered code).reoffer, some cmd)
      else
        (s1.onEntry station code fun x => { x with
          flight := some { tag, arg, answer := e.offer.answer, owner := e.owner } }, some cmd)

/-- The commands of a window: the chosen entries, each prepared in turn. -/
def State.prepareAll (s : State) : List (Nat × Nat) → State × List SendCmd
  | [] => (s, [])
  | (st, code) :: rest =>
    let p := s.prepare st code
    let r := p.1.prepareAll rest
    (r.1, p.2.toList ++ r.2)

/-- At the opening of the command window the filter chooses and prepares up to 4 entries (R160, R180). -/
def State.windowCommands (s : State) : State × List SendCmd :=
  s.prepareAll (chooseEntries s.filter.queue 4 s.filter.tag [])

/-! ## Confirmation (R161, R162) -/

/-- The litres as delivered of an ACCEPTED SPRINKLE to a station that a compartment owns go to the batch unit, whatever the
origin (R9, R161). -/
def State.creditDelivered (s : State) (e : QEntry) (x : Flight) : State :=
  match x.owner with
  | some v => match vesselIs v with
    | .comp _ => if e.offer.code = cSPRINKLE then s.creditSprinkle v x.arg else s
    | _ => s
  | none => s

/-- A delivery confirmed ACCEPTED (R161): the entry leaves the queue, and a block is told of it with the argument as
delivered. -/
def State.deliveryAccepted (s : State) (e : QEntry) (x : Flight) : State :=
  let st := e.offer.station
  let code := e.offer.code
  (((s.creditDelivered e x).tell x.answer (.accepted x.arg) code).dropEntry st code).reoffer

/-- A failed delivery, by origin (R162). -/
def State.deliveryFailed (s : State) (e : QEntry) (x : Flight) (reason : Reason) : State :=
  let st := e.offer.station
  let code := e.offer.code
  match x.answer with
  | .plant tag => ((s.dropEntry st code).refuse st code tag reason 0).reoffer
  | .block _ _ =>
    if e.tries < 3 then s.onEntry st code fun q => { q with tries := q.tries + 1, flight := none }
    else ((s.dropEntry st code).tell x.answer .failed code).reoffer

/-- The CONFIRM of a command that was replaced while it was out: its outcome is kept for the end of the window (R158), and
the litres of a SPRINKLE are credited at once (DEDUCED, assumption 76). -/
def State.keepOutcome (s : State) (e : QEntry) (x : Flight) (accepted : Bool) : State :=
  (if accepted then s.creditDelivered e x else s).onEntry e.offer.station e.offer.code fun q => { q with
    flight := some { x with outcome := some accepted } }

/-- The in-flight entry that a CONFIRM matches by source station and tag (R161). One whose outcome is known matches no
other. -/
def Filter.matching (f : Filter) (src tag : Nat) : Option (QEntry × Flight) :=
  (f.queue.find? fun e => e.offer.station = src ∧ e.flight.any fun x => x.tag = tag && x.outcome.isNone).bind fun e =>
    e.flight.map fun x => (e, x)

/-- A CONFIRM is matched against the in-flight entries, or counted as stray (R161). -/
def State.takeConfirm (s : State) (src tag : Nat) (accepted : Bool) : State :=
  match s.filter.matching src tag with
  | some (e, x) =>
    if x.replaced then s.keepOutcome e x accepted
    else if accepted then s.deliveryAccepted e x
    else s.deliveryFailed e x .stationRejected
  | none => s.onFilter fun f => { f with stray := satAdd max16 f.stray 1 }

/-- At the end of the window the command of an entry that was replaced while it was out is told its outcome: ACCEPTED as
ever, or a failure, which answers a PLANT command with its refusal and reports a block's as withdrawn, without re-delivery.
The entry's new content stays at its place, no longer in flight (R158, R161). -/
def State.reportOutcome (s : State) (e : QEntry) (x : Flight) : State :=
  let st := e.offer.station
  let code := e.offer.code
  let s1 := s.onEntry st code fun q => { q with flight := none }
  match x.outcome with
  | some true => s1.tell x.answer (.accepted x.arg) code
  | some false => s1.answer x.answer st code .stationRejected 0 .withdrawn
  | none => s1.answer x.answer st code .noConfirm 0 .withdrawn

/-- At the end of the window each in-flight entry that was replaced has its outcome reported, and each other one has failed
for want of a CONFIRM (R158, R161), all in the order of the queue (DESIGN CHOICE, assumption 77). -/
def State.settleFlights (s : State) : State :=
  (s.filter.queue.filter fun e => e.flight.isSome).foldl (fun s e =>
    match s.filter.entry e.offer.station e.offer.code with
    | some q => match q.flight with
      | some x => if x.replaced then s.reportOutcome q x else s.deliveryFailed q x .noConfirm
      | none => s
    | none => s) s

end Sys2Proof.Machine
end

