-- ==== Sys2Proof/Machine/Vessel.lean ====
section
/-! DEFINITION. Machine/Vessel.lean: what every vessel shares: phase notices, leaving AUTO, vessel faults (R46, R57,
R68, R113), the watch timer (R38), and the request a vessel posts to the transfer run (R118). -/

namespace Sys2Proof.Machine

/-- A PHASE notice of a vessel's present phase state, with a value (R49, R64, R91). -/
def State.postPhase (s : State) (v : Fin 12) (value : Nat) : State := s.postVessel .phase v (s.phaseCode v) value

/-! ## Leaving AUTO -/

/-- The CLOSE of the valve that a fill or a drain has left open, with OVERRIDE origin (R57). -/
def State.steepCloseOpen (s : State) (i : Fin 4) : State :=
  let x := s.steep i
  match s.steepCfg i with
  | some c =>
    if x.phase = .filling then s.send .override (.vessel (steepNo i)) c.fill cCLOSE
    else if x.phase = .draining ∧ !x.drained then s.send .override (.vessel (steepNo i)) c.drain cCLOSE
    else s
  | none => s

/-- A vessel's sequencer leaves AUTO for MANUAL or HOLD (R57, R68, R113). A steep's phase timer keeps its time left and
its wait timer stops. -/
def State.leaveAuto (s : State) (v : Fin 12) : State :=
  match vesselIs v with
  | .steep i => ((s.steepCloseOpen i).onSteep i fun x => { x with wait := none }).discardWaiting v
  | .comp _ => s.discardWaiting v
  | .kiln _ => s.discardWaiting v

/-! ## Vessel faults -/

/-- A FAULT notice: the code, and the phase or stage index (R46). -/
def State.postFault (s : State) (v : Fin 12) (c : FaultCode) : State :=
  s.postVessel .fault v c.code (s.phaseIndex v)

/-- A vessel fault is raised (R46). -/
def State.vesselFault (s : State) (v : Fin 12) (c : FaultCode) : State :=
  let r := s.vessel v
  match r.mode with
  | .off => s.postFault v c
  | .hold => (s.onVessel v fun x => { x with fault := some (x.fault.getD c) }).postFault v c
  | .auto =>
    (((s.onVessel v fun x => { x with mode := .hold, fault := some (x.fault.getD c) }).postFault v c).postVessel .mode v
      Mode.hold.code Mode.auto.code).leaveAuto v
  | .manual =>
    ((s.onVessel v fun x => { x with mode := .hold, fault := some (x.fault.getD c) }).postFault v c).postVessel .mode v
      Mode.hold.code Mode.manual.code

/-! ## The watch (R38) -/

/-- Whether a table holds a watch MP of a vessel. -/
def watchMpIn (t : Tbl MpEntry) (v : Fin 12) : Bool := t.any fun e => e.2.watch && e.2.owner = .vessel v

/-- Loading the timer sets its expiry to the present process time plus the watch interval in force (R38). -/
def State.loadWatch (s : State) (v : Fin 12) : State :=
  match s.tables.vessel.watchOf v with
  | some n => s.onVessel v fun r => { r with watch := some (n * 10) }
  | none => s

/-! ## Transfer requests (R117, R118) -/

/-- The list is kept oldest first; among equal request times the lower source stands first (R117). -/
def insertReq : List TransferReq → TransferReq → List TransferReq
  | [], x => [x]
  | r :: rs, x => if r.time = x.time ∧ x.source < r.source then x :: r :: rs else r :: insertReq rs x

/-- A request joins the list, which makes the arbiter scan (R118). -/
def State.addRequest (s : State) (r : TransferReq) : State :=
  (s.onTransfer fun t => { t with requests := insertReq t.requests r }).emit .scan

def State.hasRequest (s : State) (v : Fin 12) : Bool := s.transfer.requests.any fun r => r.source = v

/-- A sequencer posts its request, where the list holds none from this source (R118). -/
def State.postRequest (s : State) (v : Fin 12) : State :=
  if s.hasRequest v then s
  else
    let k : TransferKind × Option (Fin 13) := match vesselIs v with
      | .steep _ => (.cast, none)
      | .comp _ => (.load, none)
      | .kiln _ => (.strip, some 12)
    s.addRequest { kind := k.1, source := v, dest := k.2, fromPlant := false, time := s.timeNow }

end Sys2Proof.Machine
end

