-- ==== Sys2Proof/Machine/Turner.lean ====
section
/-! DEFINITION. Machine/Turner.lean: turning demands, the turner arbiter, passes, faults, pass-position tracking and
homing (R70 to R87). -/

namespace Sys2Proof.Machine

def allComps : List (Fin 6) := [0, 1, 2, 3, 4, 5]
def allTurners : List (Fin 2) := [0, 1]

/-- The crossway position of compartment Cn is n + 1 (R61). -/
def crossway (c : Fin 6) : Nat := c.val + 1

/-- The park of a turner: west park 0, east park 7 (Table 0-5). -/
def park (t : Fin 2) : Nat := if t = 0 then 0 else 7

def State.compMode (s : State) (c : Fin 6) : Mode := (s.vessel (compNo c)).mode
def State.compBlind (s : State) (c : Fin 6) : Bool := (s.vessel (compNo c)).blind

/-! ## Turner state and its notice (R74) -/

/-- The value of a TURNER notice: the assigned compartment's vessel number, the position, the cause, or 255. -/
def Turner.noticeValue (x : Turner) : Nat :=
  match x.state with
  | .moving | .passOut | .passBack => match x.assigned with
    | some c => (compNo c).val
    | none => 255
  | .idle => x.position.getD 255
  | .fault => match x.cause with
    | some c => c.code
    | none => 255
  | .unhomed | .homing => 255

/-- A turner's record changes with its state, and a TURNER notice is posted (R74). -/
def State.turnerTo (s : State) (t : Fin 2) (f : Turner → Turner) : State :=
  let s1 := s.onTurner t f
  s1.post .turner .turner t.val (s1.turner t).state.code (s1.turner t).noticeValue

/-- A command to a turner's drive station, of SEQUENCER origin. -/
def State.drive (s : State) (t : Fin 2) (code : Nat) : State :=
  s.sendTo .sequencer (.drive t) ((s.turnerCfg t).map (·.drive)) code

/-- MOVE_TO p is offered, and the turner keeps the serial of this offer (R75). -/
def State.moveTo (s : State) (t : Fin 2) (p : Nat) : State :=
  let n := s.filter.serial
  let s1 := s.onTurner t fun x => { x with
    moveSerial := some n, moveAccepted := false, moveTimer := (s.turnerCfg t).map fun c => c.moveLimit * 10 }
  s1.sendArgTo .sequencer (.drive t) ((s.turnerCfg t).map (·.drive)) cMOVETO p

/-! ## Passes (R79) -/

/-- SPRINKLE is offered at a pass start where the compartment is in AUTO, has a sprinkler, the stage sprinkles, and M
is below the stage's ceiling (R79). -/
def State.offerSprinkle (s : State) (c : Fin 6) : State :=
  match s.compCfg c, (s.comp c).fields, s.moistureAt (compNo c) with
  | some cfg, some f, some m =>
    if s.compMode c = .auto ∧ f.litres ≠ 0 ∧ m < f.ceiling ∧ (s.comp c).index ≠ 255 then
      s.sendArgTo .sequencer (.vessel (compNo c)) cfg.sprinkler cSPRINKLE f.litres
    else s
  | _, _, _ => s

/-- A pass starts (R79). -/
def State.startPass (s : State) (t : Fin 2) (c : Fin 6) : State :=
  let s1 := s.onTurner t fun x => { x with
    passLength := ((s.compCfg c).map (·.length)).getD 0
    passTimer := (s.turnerCfg t).map fun g => g.passLimit * 600 }
  ((s1.drive t cFORWARD).turnerTo t fun x => { x with state := .passOut }).offerSprinkle c

/-! ## The arbiter (R76, R77) -/

/-- Whether the route of turner t to position p is clear of the other turner (R77). -/
def State.routeClear (s : State) (t : Fin 2) (p : Nat) : Bool :=
  let o := s.turner (other t)
  match o.position with
  | none => false
  | some q =>
    if t = 0 then decide (p < q) && o.target.all (fun g => decide (p < g))
    else decide (q < p) && o.target.all (fun g => decide (g < p))

/-- Turner t is IDLE and its route to p is clear; then how many positions away it stands. -/
def State.reach (s : State) (t : Fin 2) (p : Nat) : Option Nat :=
  match (s.turner t).state, (s.turner t).position with
  | .idle, some q => if s.routeClear t p then some (max p q - min p q) else none
  | _, _ => none

/-- The turner that takes a grant at position p: the nearer clear one, turner 0 on a tie (R77). -/
def State.chooseTurner (s : State) (p : Nat) : Option (Fin 2) :=
  match s.reach 0 p, s.reach 1 p with
  | some a, some b => if b < a then some 1 else some 0
  | some _, none => some 0
  | none, some _ => some 1
  | none, none => none

/-- A grant of compartment c's demand to turner t (R77). -/
def State.grantTurner (s : State) (c : Fin 6) (t : Fin 2) : State :=
  let s1 := (s.onComp c fun x => { x with demand := x.demand.map fun d => { d with turner := some t } }).onTurner t
    fun x => { x with assigned := some c }
  if (s.turner t).position = some (crossway c) then s1.startPass t c
  else
    ((s1.onTurner t fun x => { x with target := some (crossway c) }).moveTo t (crossway c)).turnerTo t fun x =>
      { x with state := .moving }

/-- A demand eligible for a grant: pending, in a compartment that is GERMINATING and in AUTO (R76). -/
def State.grantable (s : State) (c : Fin 6) : Option Demand :=
  match (s.comp c).demand with
  | some d =>
    if d.turner.isNone ∧ (s.comp c).phase = .germinating ∧ s.compMode c = .auto then some d else none
  | none => none

/-- The arbiter's order: highest kind, then earliest time, then lowest compartment (R76). The times are compared as they are
stored, also where the process time has wrapped between them (DESIGN CHOICE, assumption 82). -/
def demandBefore (a b : Fin 6 × Demand) : Bool :=
  if a.2.kind ≠ b.2.kind then decide (b.2.kind.code < a.2.kind.code)
  else if a.2.time ≠ b.2.time then decide (a.2.time < b.2.time)
  else decide (a.1 < b.1)

def insertDemand : List (Fin 6 × Demand) → Fin 6 × Demand → List (Fin 6 × Demand)
  | [], x => [x]
  | d :: ds, x => if demandBefore x d then x :: d :: ds else d :: insertDemand ds x

/-- The pending demands in the arbiter's order. -/
def State.pendingDemands (s : State) : List (Fin 6 × Demand) :=
  allComps.foldl (fun l c => match s.grantable c with
    | some d => insertDemand l (c, d)
    | none => l) []

/-- A run of the turner arbiter: each pending demand in turn is granted where an IDLE turner can take it, and passed
over otherwise (R76). -/
def State.turnerArbiter (s : State) : State :=
  s.pendingDemands.foldl (fun s d => match s.chooseTurner (crossway d.1) with
    | some t => s.grantTurner d.1 t
    | none => s) s

/-! ## Demands (R70) -/

/-- A demand is raised in a compartment that is GERMINATING and not BLIND: created, or merged at the higher kind. -/
def State.raiseDemand (s : State) (c : Fin 6) (k : DemandKind) : State :=
  if (s.comp c).phase = .germinating ∧ !s.compBlind c then
    match (s.comp c).demand with
    | none => (s.onComp c fun x => { x with demand := some { kind := k, time := s.timeNow } }).turnerArbiter
    | some d =>
      if d.kind.code < k.code then
        let s1 := s.onComp c fun x => { x with demand := some { d with kind := k } }
        if d.turner.isNone then s1.turnerArbiter else s1
      else s
  else s

/-- A granted demand returns to pending with its kind and original time (R70). -/
def State.returnDemand (s : State) (t : Fin 2) (c : Fin 6) : State :=
  s.onComp c fun x => { x with
    demand := x.demand.map fun d => if d.turner = some t then { d with turner := none } else d }

/-! ## Faults (R81, R82) -/

/-- A turner fault in its compartment: the first posts a FAULT notice, the second raises TURNER_FAULT (R82). -/
def State.countTurnerFault (s : State) (c : Fin 6) : State :=
  let n := satAdd 255 (s.comp c).faults 1
  let s1 := s.onComp c fun x => { x with faults := n }
  if n = 1 then s1.postFault (compNo c) .turnerFault else s1.vesselFault (compNo c) .turnerFault

/-- The reply NOT_READY to TURNER HOME where a turner fails while it homes (R86). A turner that is no longer HOMING fails no
homing: the reply waits for the other turner (DESIGN CHOICE, assumption 71). -/
def State.homeFailed (s : State) (t : Fin 2) : State :=
  match s.mgmt.plant with
  | some p => if p.cls = 4 ∧ p.code = 1 then s.endLong .plant .notReady t.val else s
  | none => s

/-- A turner faults (R81). Only a fault of a turner that is HOMING answers TURNER HOME; one that has entered IDLE and then
faults leaves that request open for the other turner (R86, R183; DESIGN CHOICE, assumption 71). -/
def State.turnerFault (s : State) (t : Fin 2) (c : TurnerCause) : State :=
  let x := s.turner t
  let s1 := ((s.drive t cSTOP).onTurner t fun x => { x with moveTimer := none, passTimer := none }).turnerTo t fun x =>
    { x with state := .fault, cause := some c, faultReport := none }
  let s2 := if x.state = .homing then s1.homeFailed t else s1
  match x.assigned with
  | some n =>
    let s3 := if c = .unbiddenMove then s2 else s2.countTurnerFault n
    (s3.returnDemand t n).turnerArbiter
  | none => s2

/-- The filter reports a failed command to a turner's drive station (Table 8-3, R81). -/
def State.driveFailed (s : State) (t : Fin 2) : State :=
  match (s.turner t).state with
  | .idle | .moving | .passOut | .passBack | .homing => s.turnerFault t .commandFailed
  | .fault => s.post .turner .turner t.val (TurnerState.code .fault) (TurnerCause.code .commandFailed)
  | .unhomed => s

/-- The filter reports the MOVE_TO that set the target ACCEPTED (R75). -/
def State.driveAccepted (s : State) (t : Fin 2) (serial : Nat) : State :=
  s.onTurner t fun x => if x.moveSerial = some serial then { x with moveAccepted := true } else x

/-! ## Arrival and reports (R75, R78, R86) -/

/-- A MOVING turner has arrived (R78). -/
def State.turnerArrives (s : State) (t : Fin 2) : State :=
  let s1 := (s.onTurner t fun x => { x with position := x.target, target := none, moveTimer := none }).turnerArbiter
  match (s.turner t).assigned with
  | none => (s1.turnerTo t fun x => { x with state := .idle }).turnerArbiter
  | some c =>
    let k := s1.comp c
    if k.phase = .germinating ∧ s1.compMode c = .auto ∧ k.demand.any (fun d => d.turner = some t) then s1.startPass t c
    else
      let s2 := s1.turnerTo t fun x => { x with state := .idle, assigned := none }
      (if k.phase = .germinating then s2.returnDemand t c else s2.onComp c fun x => { x with demand := none }).turnerArbiter

/-- A HOMING turner has arrived at its park: the back-run begins (R86). TURN_BACK is offered before the arbiter runs
(DESIGN CHOICE, assumption 83). -/
def State.homingArrives (s : State) (t : Fin 2) : State :=
  ((s.onTurner t fun x => { x with
      position := x.target, target := none, marker := false, moveTimer := none
      passTimer := (s.turnerCfg t).map fun g => g.passLimit * 600 }).drive t cBACK).turnerArbiter

/-- A usable TURNER_STATE delivery is read by the codes of Table 4-8 (R75). In FAULT every usable delivery is the latest one of
R87, also one of a value outside Table 4-8: it takes the place of an at-rest report (DESIGN CHOICE, assumption 90). -/
def State.turnerReport (s : State) (t : Fin 2) (v : Int) : State :=
  let x := s.turner t
  if x.state = .fault then s.onTurner t fun y => { y with faultReport := some v }
  else if 0 ≤ v ∧ v ≤ 7 then
    if x.state = .moving ∧ x.target = some v.toNat ∧ x.moveAccepted then s.turnerArrives t
    else if x.state = .homing ∧ x.target = some v.toNat ∧ x.moveAccepted then s.homingArrives t
    else if x.state = .idle ∧ x.position ≠ some v.toNat then s.turnerFault t .unbiddenMove
    else s
  else if v = 11 then
    match x.state with
    | .idle | .moving | .passOut | .passBack | .homing => s.turnerFault t .driveFault
    | .unhomed | .fault => s
  else s

/-! ## Pass-position tracking (R83, R84) -/

/-- The greatest pass position in the turner's present state (R83). A compartment whose vessel table entry has been emptied
has no bed length: 60,000 stands for it (DESIGN CHOICE, assumption 57). -/
def State.passBound (s : State) (t : Fin 2) : Nat :=
  let x := s.turner t
  if x.state = .passOut ∨ x.state = .passBack then x.passLength
  else match x.assigned with
    | some c => ((s.compCfg c).map (·.length)).getD 60000
    | none => 60000

/-- The delta d is added to P, and the result limited to 0..L (R83). -/
def State.trackPass (s : State) (t : Fin 2) (d : Int) : State :=
  let sum := ((s.turner t).pass : Int) + d
  let p := narrow 0 (s.passBound t) sum
  s.onTurner t fun x => { x with
    pass := p.toNat
    clamps := if p = sum then x.clamps else satAdd max16 x.clamps 1 }

/-- The home-marker test (R84). -/
def State.markerTest (s : State) (t : Fin 2) (flag : Bool) (d : Int) : State :=
  let x := s.turner t
  let s1 :=
    if flag ∧ !x.marker then
      if d ≤ 0 then
        let s2 := s.onTurner t fun y => { y with pass := 0 }
        if x.position.isSome ∧ x.state ≠ .homing ∧ ((s.turnerCfg t).map (·.markTol)).getD 0 < x.pass then
          (s2.post .slip .turner t.val 0 x.pass).onTurner t fun y => { y with slips := satAdd max16 y.slips 1 }
        else s2
      else s.onTurner t fun y => { y with ambiguous := satAdd max16 y.ambiguous 1 }
    else s
  s1.onTurner t fun y => { y with marker := flag }

/-- Whether a BED_TEMP comparator of a compartment is HIGH, or SETTLING with HIGH remembered (R80). -/
def State.bedHot (s : State) (c : Fin 6) : Bool :=
  s.tables.mp.any fun e =>
    e.2.owner = .vessel (compNo c) && [Role.bedTemp1, .bedTemp2, .bedTemp3, .bedTemp4].contains e.2.role &&
      match (s.live e.1).comp with
      | some (.steady .high) => true
      | some (.settling .high _) => true
      | _ => false

/-- The interval timer's load: the stage's turning interval, or stopped where it is 0 (R71). -/
def GermStage.intervalTimer (f : GermStage) : Timer := if f.interval = 0 then none else some (f.interval * 600)

/-- A pass is complete (R80). -/
def State.passComplete (s : State) (t : Fin 2) : State :=
  let s1 := ((s.drive t cSTOP).onTurner t fun x => { x with passTimer := none }).turnerTo t fun x =>
    { x with state := .idle, assigned := none }
  match (s.turner t).assigned with
  | none => (s1.emit .scan).turnerArbiter
  | some c =>
    let s2 := s1.onComp c fun x => { x with demand := none, faults := 0 }
    let s3 := s2.onComp c fun x =>
      if x.phase = .germinating ∧ x.index ≠ 255 then
        { x with interval := match x.fields with
          | some f => f.intervalTimer
          | none => none }
      else x
    let s4 := if s3.bedHot c then s3.raiseDemand c .urgent else s3
    (s4.emit .scan).turnerArbiter

/-- TURNER HOME is answered OK once both turners have entered IDLE (R86), whether or not the first is IDLE still (DESIGN
CHOICE, assumption 71). -/
def State.homeDone (s : State) (t : Fin 2) : State :=
  match s.mgmt.plant with
  | some p =>
    if p.cls = 4 ∧ p.code = 1 then
      let q := if t = 0 then { p with home0 := true } else { p with home1 := true }
      let s1 := s.onMgmt fun m => { m with plant := some q }
      if q.home0 ∧ q.home1 then s1.endLong .plant .ok 0 else s1
    else s
  | none => s

/-- The back-run has ended at the marker: the turner is IDLE at its park (R86). -/
def State.homingEnds (s : State) (t : Fin 2) : State :=
  ((((s.drive t cSTOP).onTurner t fun x => { x with passTimer := none }).turnerTo t fun x =>
    { x with state := .idle }).homeDone t).turnerArbiter

/-- A usable TURNER_ENCODER delivery: tracking, the marker test, then the checks of the pass or of the back-run (R79,
R80, R83, R84, R86). -/
def State.turnerEncoder (s : State) (t : Fin 2) (d : Int) (flag : Bool) : State :=
  let x := s.turner t
  let s1 := (s.trackPass t d).markerTest t flag d
  let tol := ((s.turnerCfg t).map (·.endTol)).getD 0
  match x.state with
  | .passOut =>
    if x.passLength ≤ (s1.turner t).pass + tol then
      (s1.drive t cBACK).turnerTo t fun y => { y with state := .passBack }
    else s1
  | .passBack => if (s1.turner t).pass ≤ tol then s1.passComplete t else s1
  | .homing => if x.target.isNone ∧ flag ∧ !x.marker ∧ d ≤ 0 then s1.homingEnds t else s1
  | .unhomed | .idle | .moving | .fault => s1

/-! ## Clearing (R87) -/

/-- Whether position p keeps the order of the crossway against the other turner (R87). -/
def State.keepsOrder (s : State) (t : Fin 2) (p : Nat) : Bool :=
  match (s.turner (other t)).position with
  | none => true
  | some _ => s.routeClear t p

/-- TURNER CLEAR takes a turner reported at rest at p out of FAULT (R87). -/
def State.turnerClear (s : State) (t : Fin 2) (p : Nat) : State :=
  let home := (s.turner t).position.isSome && s.keepsOrder t p
  let s1 := s.onTurner t fun x => { x with target := none, assigned := none, cause := none }
  let s2 :=
    if home then (s1.turnerTo t fun x => { x with position := some p, state := .idle }).turnerArbiter
    else s1.turnerTo t fun x => { x with position := none, state := .unhomed }
  s2.emit .scan

end Sys2Proof.Machine
end

