-- ==== Sys2Proof/Machine/KilnHeat.lean ====
section
/-! DEFINITION. Machine/KilnHeat.lean: the grant, the throttle cap, the thermal override, the step timer and the peat gate
of a kiln (R102 to R111), over which the stages of a kiln are built. -/

namespace Sys2Proof.Machine

def State.kilnMode (s : State) (k : Fin 2) : Mode := (s.vessel (kilnNo k)).mode
def State.kilnBlind (s : State) (k : Fin 2) : Bool := (s.vessel (kilnNo k)).blind

/-- The program-wide fields of the committed program of the kiln's batch, read at the moment of use (R90). -/
def State.kilnWide (s : State) (k : Fin 2) : Option KilnWide :=
  (s.batchAt (kilnNo k)).bind fun e => s.tables.kiln.wideOf stageWidth e.2.kilnProg

/-- The BLIND cap of the kiln's program. A kiln without a program has the grant 0, which leaves it nothing to cap. -/
def State.blindCap (s : State) (k : Fin 2) : Nat := ((s.kilnWide k).map (·.blindCap)).getD 0

/-- The cap's target: the grant, or min(g, BLIND cap) while the kiln is BLIND (R106). -/
def State.capTarget (s : State) (k : Fin 2) : Nat :=
  let g := (s.kiln k).grant
  if s.kilnBlind k then min g (s.blindCap k) else g

/-- A SEQUENCER command to one of a kiln's stations. -/
def State.kilnSend (s : State) (k : Fin 2) (station : KilnCfg → Nat) (code : Nat) : State :=
  s.sendTo .sequencer (.vessel (kilnNo k)) ((s.kilnCfg k).map station) code

def State.kilnSendArg (s : State) (k : Fin 2) (station : KilnCfg → Nat) (code : Nat) (arg : Int) : State :=
  s.sendArgTo .sequencer (.vessel (kilnNo k)) ((s.kilnCfg k).map station) code arg

/-- The peat feeder's station, where the entry names one (R89). -/
def State.peatStation (s : State) (k : Fin 2) : Option Nat := (s.kilnCfg k).bind (·.peat)

/-! ## The cap and its step timer (R106, R108, R109) -/

/-- Whenever c has reached its target, the step timer is stopped unless the kiln is HOT (R106). -/
def State.restCap (s : State) (k : Fin 2) : State :=
  let x := s.kiln k
  if x.cap = s.capTarget k ∧ x.thermal ≠ .hot then s.onKiln k fun y => { y with step := none } else s

/-- The cap becomes c. Where it changes, DUTY_CAP is offered with OVERRIDE origin (R106). The filter reads the cap as it
stands in the kiln's record. -/
def State.setCap (s : State) (k : Fin 2) (c : Nat) : State :=
  if (s.kiln k).cap = c then s.restCap k
  else
    ((s.onKiln k fun y => { y with cap := c }).restCap k).sendArgTo .override (.vessel (kilnNo k))
      ((s.kilnCfg k).map (·.burner)) cDUTYCAP c

/-- The step timer is loaded afresh in a direction, with the override interval down and the recovery interval up. A
kiln in OFF, without a batch or at stage index 255 loads none (R109). -/
def State.loadStep (s : State) (k : Fin 2) (d : StepDir) : State :=
  match s.kilnWide k with
  | some w =>
    if s.kilnMode k ≠ .off ∧ (s.kiln k).index ≠ 255 then
      s.onKiln k fun y => { y with step := some (d, (match d with
        | .down => w.overrideInt
        | .up => w.recoveryInt) * 10) }
    else s
  | none => s

/-- One step down of the cap, and the step timer afresh for a step down (R107, R108). -/
def State.stepDown (s : State) (k : Fin 2) : State := (s.setCap k ((s.kiln k).cap - 1)).loadStep k .down

/-- The step timer of a kiln that is CLEAR: afresh for a step up where c is below its target, else stopped. -/
def State.loadRecovery (s : State) (k : Fin 2) : State :=
  if (s.kiln k).cap < s.capTarget k then s.loadStep k .up else s.onKiln k fun y => { y with step := none }

/-! ## The thermal condition (R107) -/

/-- The roles whose comparators make a kiln's thermal condition. -/
def Role.heats : Role → Bool
  | .airOnTemp | .bedTemp1 | .bedTemp2 | .bedTemp3 | .bedTemp4 => true
  | _ => false

/-- The comparators of every AIR_ON_TEMP and BED_TEMP MP of a kiln, duplicates included. -/
def State.heatComparators (s : State) (k : Fin 2) : List Comparator :=
  (s.tables.mp.filter fun e => e.2.owner = .vessel (kilnNo k) ∧ e.2.role.heats = true).filterMap fun e =>
    (s.live e.1).comp

/-- The thermal condition that a kiln's comparators make. -/
def thermalOf (cs : List Comparator) : Thermal :=
  if cs.any (fun c => match c with
    | .settling _ _ => true
    | .steady _ => false) then .holding
  else if cs.any (fun c => c = .steady .high) then .hot
  else .clear

/-- The condition is re-taken at a comparator change; enters says that the change is an entry into HIGH (R107). In OFF
the override does not act (R106). -/
def State.retakeThermal (s : State) (k : Fin 2) (enters : Bool) : State :=
  let x := s.kiln k
  let now := thermalOf (s.heatComparators k)
  let acts := s.kilnMode k != .off
  match now with
  | .holding => s.onKiln k fun y => { y with thermal := .holding, heatSeen := y.heatSeen || enters }
  | .hot =>
    let s1 := s.onKiln k fun y => { y with thermal := .hot, heatSeen := false }
    if !acts then s1
    else if x.thermal = .holding then
      if x.heatSeen ∨ enters then s1.stepDown k else s1.loadStep k .down
    else if enters then s1.stepDown k
    else s1
  | .clear =>
    let s1 := s.onKiln k fun y => { y with thermal := .clear, heatSeen := false }
    if acts ∧ x.thermal ≠ .clear then s1.loadRecovery k else s1

/-! ## Grants (R102, R103) -/

/-- The grant becomes g, and the cap follows it (R106). -/
def State.setGrant (s : State) (k : Fin 2) (g : Nat) : State :=
  let x := s.kiln k
  let steady := x.cap = s.capTarget k
  let s1 := s.onKiln k fun y => { y with grant := g }
  if g < x.grant then s1.setCap k (min x.cap g)
  else if x.grant < g ∧ x.thermal = .clear ∧ steady then s1.setCap k (s1.capTarget k)
  else s1

/-- min(r, B - g_other): what the budget has for a kiln that asks r (R102). -/
def State.room (s : State) (k : Fin 2) (r : Nat) : Nat := min r (s.budget - (s.kiln (other k)).grant)

/-! ## The peat gate (R111) -/

/-- Whether the gate is to be open: FIRING, peat permitted, and M at or above the stage's peat floor. -/
def State.gateWanted (s : State) (k : Fin 2) : Bool :=
  match (s.kiln k).fields, s.moistureAt (kilnNo k) with
  | some f, some m => decide ((s.kiln k).phase = .firing) && f.peat && decide (f.peatFloor ≤ m)
  | _, _ => false

/-- The gate becomes b. A shutting gate offers STOP with OVERRIDE origin but in OFF, an opening one RUN in AUTO. -/
def State.setGate (s : State) (k : Fin 2) (b : Bool) : State :=
  if (s.kiln k).gate = b then s
  else
    let s1 := s.onKiln k fun y => { y with gate := b }
    if b then
      if s.kilnMode k = .auto then s1.sendTo .sequencer (.vessel (kilnNo k)) (s.peatStation k) cRUN else s1
    else if s.kilnMode k ≠ .off then s1.sendTo .override (.vessel (kilnNo k)) (s.peatStation k) cSTOP
    else s1

/-- The gate is evaluated. -/
def State.evalGate (s : State) (k : Fin 2) : State := s.setGate k (s.gateWanted k)

/-- RUN to the peat feeder if the stage permits peat and the gate is open (R93, R103). -/
def State.offerPeat (s : State) (k : Fin 2) : State :=
  if (s.kiln k).fields.any (·.peat) && (s.kiln k).gate then
    s.sendTo .sequencer (.vessel (kilnNo k)) (s.peatStation k) cRUN
  else s

/-- RUN and then SETPOINT g to the burner station, with g 0 too: R102 says that such a stage runs no burner, and R93 gives the
commands of FIRING without an exception (DESIGN CHOICE, assumption 66). -/
def State.offerBurner (s : State) (k : Fin 2) : State :=
  (s.kilnSend k (·.burner) cRUN).kilnSendArg k (·.burner) cSETPOINT (s.kiln k).grant

/-! ## Re-evaluation (R103) -/

/-- A kiln that re-evaluates: in AUTO, and waiting for heat at an index other than 255 or firing below its request. -/
def State.regrants (s : State) (k : Fin 2) : Bool :=
  let x := s.kiln k
  decide (s.kilnMode k = .auto) &&
    ((decide (x.phase = .waitHeat) && decide (x.index ≠ 255)) ||
      (decide (x.phase = .firing) && x.fields.any fun f => decide (x.grant < f.request)))

/-- Kiln k re-evaluates its grant (R101, R103). One that goes from WAIT_HEAT to FIRING starts its firing time from 0, also where
a re-entry had sent it to WAIT_HEAT with its firing time standing (R114); its minute marks and its minimum begin anew with it,
and its break ring stands (DEDUCED, assumption 67). -/
def State.regrant (s : State) (k : Fin 2) : State :=
  if s.regrants k then
    match (s.kiln k).fields with
    | some f =>
      let g := s.room k f.request
      if (s.kiln k).phase = .waitHeat then
        if f.minDuty ≤ g then
          let s1 := (s.onKiln k fun y => { y with
            phase := .firing, firing := 0, minutes := 0, minTaken := false }).postPhase (kilnNo k) (s.kiln k).index
          (((s1.setGrant k g).evalGate k).offerBurner k).offerPeat k
        else s
      else if (s.kiln k).grant < g then (s.setGrant k g).kilnSendArg k (·.burner) cSETPOINT g
      else s
    | none => s
  else s

/-- The grant of kiln k becomes g; where it falls, the other kiln re-evaluates (R103). -/
def State.changeGrant (s : State) (k : Fin 2) (g : Nat) : State :=
  let s1 := s.setGrant k g
  if g < (s.kiln k).grant then s1.regrant (other k) else s1

/-! ## BLIND (R110) -/

/-- The kiln becomes BLIND, its BLIND flag being set: c comes down to the BLIND cap. -/
def State.kilnBlinded (s : State) (k : Fin 2) : State :=
  let s1 := s.setCap k (min (s.kiln k).cap (s.blindCap k))
  match (s1.kiln k).step with
  | some (.up, _) => if s1.capTarget k ≤ (s1.kiln k).cap then s1.onKiln k fun y => { y with step := none } else s1
  | _ => s1

/-- BLIND has cleared: a CLEAR kiln below its grant is restored by recovery. -/
def State.kilnSees (s : State) (k : Fin 2) : State :=
  let x := s.kiln k
  match x.step with
  | some (.up, _) => s
  | _ => if x.thermal = .clear ∧ x.cap < x.grant then s.loadStep k .up else s

/-! ## The step timer's expiry (R108) -/

/-- The step timer of a kiln expires (R108). A timer that runs up in a kiln that a COMMIT of the MP table has made HOT without
an entry into HIGH runs on, and is stopped here, without a step (DESIGN CHOICE, assumption 91). -/
def State.kilnStepExpires (s : State) (k : Fin 2) : State :=
  let x := s.kiln k
  match x.step with
  | some (.down, 0) =>
    if x.thermal = .hot then s.stepDown k
    else if x.thermal = .clear then s.loadRecovery k
    else s
  | some (.up, 0) =>
    if x.thermal = .clear then
      if x.cap < s.capTarget k then (s.setCap k (x.cap + 1)).loadRecovery k
      else s.onKiln k fun y => { y with step := none }
    else if x.thermal = .hot then s.onKiln k fun y => { y with step := none }
    else s
  | _ => s

end Sys2Proof.Machine
end

