-- ==== Sys2Proof/Machine/Steep.lean ====
section
/-! DEFINITION. Machine/Steep.lean: the steep sequencer (chapter 3): the phases, the rest weighing, the CO2 override, the
cast, leaving and entering AUTO, and the expiries of a steep's two timers. -/

namespace Sys2Proof.Machine

def allSteeps : List (Fin 4) := [0, 1, 2, 3]

def State.steepMode (s : State) (i : Fin 4) : Mode := (s.vessel (steepNo i)).mode
def State.steepBlind (s : State) (i : Fin 4) : Bool := (s.vessel (steepNo i)).blind

/-- The steep program of the batch in the steep. -/
def State.steepProg (s : State) (i : Fin 4) : Option Nat := (s.batchAt (steepNo i)).map fun e => e.2.steepProg

/-- The phases of that program in the committed table (R48). -/
def State.steepPhases (s : State) (i : Fin 4) : List SteepPhase :=
  match s.steepProg i with
  | some p => s.tables.steep.stagesOf steepWidth p
  | none => []

/-- Its program-wide fields, read at the moment of use (R48). -/
def State.steepWide (s : State) (i : Fin 4) : Option SteepWide := (s.steepProg i).bind (s.tables.steep.wideOf steepWidth)

/-- A SEQUENCER command to one of a steep's stations, withheld where the station is absent (R47). -/
def State.steepSend (s : State) (i : Fin 4) (station : SteepCfg → Option Nat) (code : Nat) : State :=
  s.sendTo .sequencer (.vessel (steepNo i)) ((s.steepCfg i).bind station) code

def State.steepSendArg (s : State) (i : Fin 4) (station : SteepCfg → Option Nat) (code : Nat) (arg : Int) : State :=
  s.sendArgTo .sequencer (.vessel (steepNo i)) ((s.steepCfg i).bind station) code arg

/-! ## The CO2 override (R55) -/

/-- The comparator of the steep's CO2 MP is HIGH, or SETTLING with HIGH remembered. -/
def State.co2High (s : State) (i : Fin 4) : Bool :=
  match (s.mpOf (.vessel (steepNo i)) .co2).bind fun n => (s.live n).comp with
  | some (.steady .high) => true
  | some (.settling .high _) => true
  | _ => false

/-- STOP to the extraction fan, unless the override holds it. -/
def State.fanStop (s : State) (i : Fin 4) : State :=
  if (s.steep i).co2Hold then s else s.steepSend i (fun c => some c.fan) cSTOP

/-- RUN and then SETPOINT with the phase's fan flow, unless the override holds the fan. -/
def State.fanRun (s : State) (i : Fin 4) : State :=
  if (s.steep i).co2Hold then s
  else match (s.steep i).fields with
    | some f => (s.steepSend i (fun c => some c.fan) cRUN).steepSendArg i (fun c => some c.fan) cSETPOINT f.fan
    | none => s

/-- The fan command of the present step (R55). -/
def State.fanOfStep (s : State) (i : Fin 4) : State :=
  match (s.steep i).phase with
  | .resting | .weighing => s.fanRun i
  | .filling | .immersed | .draining => s.fanStop i
  | .empty | .idle | .castWait | .casting => s

/-- RUN and SETPOINT of the override: the range max of the lowest-numbered FAN_FLOW MP, or the RUN alone. -/
def State.fanOverride (s : State) (i : Fin 4) : State :=
  let v := Purpose.vessel (steepNo i)
  let s1 := s.sendTo .override v ((s.steepCfg i).map (·.fan)) cRUN
  match (s.mpOf (.vessel (steepNo i)) .fanFlow).bind s.tables.mp.get with
  | some e => s1.sendArgTo .override v ((s.steepCfg i).map (·.fan)) cSETPOINT e.rmax
  | none => s1

/-- The override is brought to what the steep's CO2 and mode now make it. -/
def State.co2Refresh (s : State) (i : Fin 4) : State :=
  let holds := decide (s.steepMode i ≠ .off) && s.co2High i
  if (s.steep i).co2Hold = holds then s
  else
    let s1 := s.onSteep i fun x => { x with co2Hold := holds }
    if holds then s1.fanOverride i else if s.steepMode i = .auto then s1.fanOfStep i else s1

/-! ## Phases (R50 to R53) -/

/-- The phase state becomes p; a change posts a PHASE notice with the phase index (R49). -/
def State.steepTo (s : State) (i : Fin 4) (p : SteepState) : State :=
  if (s.steep i).phase = p then s
  else (s.onSteep i fun x => { x with phase := p }).postPhase (steepNo i) (s.steep i).index

/-- The aeration command of a WET phase's immersion (R51). -/
def State.aerate (s : State) (i : Fin 4) : State :=
  s.steepSend i (·.aerate) (if (s.steep i).fields.any (·.aeration) then cRUN else cSTOP)

/-- SETPOINT with the phase's water setpoint to the water conditioner. -/
def State.waterSet (s : State) (i : Fin 4) : State :=
  match (s.steep i).fields with
  | some f => s.steepSendArg i (·.water) cSETPOINT f.water
  | none => s

/-- The phase timer's load: the phase's duration. -/
def Steep.durationTimer (x : Steep) : Timer := x.fields.map fun f => f.duration * 600

/-- The full level is reached in FILLING (R51). -/
def State.steepFull (s : State) (i : Fin 4) : State :=
  let s1 := (s.steepSend i (fun c => some c.fill) cCLOSE).aerate i
  (s1.onSteep i fun x => { x with wait := none, phaseTimer := x.durationTimer }).steepTo i .immersed

/-- The empty level is reached in DRAINING (R52). -/
def State.steepDrained (s : State) (i : Fin 4) : State :=
  (s.steepSend i (fun c => some c.drain) cCLOSE).onSteep i fun x =>
    { x with wait := none, phaseTimer := x.durationTimer, drained := true }

/-- A level is compared with the full or the empty level, in AUTO (R51, R52, R57). -/
def State.levelCheck (s : State) (i : Fin 4) (level : Int) : State :=
  match s.steepCfg i with
  | some c =>
    if s.steepMode i ≠ .auto then s
    else match (s.steep i).phase with
      | .filling => if (c.full : Int) ≤ level then s.steepFull i else s
      | .draining => if (s.steep i).drained = false ∧ level ≤ (c.empty : Int) then s.steepDrained i else s
      | _ => s
  | none => s

/-- The comparison on the present value of the steep's LEVEL MP, where it is usable. -/
def State.levelNow (s : State) (i : Fin 4) : State :=
  match s.usableRole (.vessel (steepNo i)) .level with
  | some v => s.levelCheck i v
  | none => s

/-- The wait timer is loaded for a purpose. -/
def State.loadWait (s : State) (i : Fin 4) (w : WaitFor) (tenths : Nat) : State :=
  s.onSteep i fun x => { x with wait := some (w, tenths) }

/-- The commands of a WET phase's start, the fill timeout, and FILLING (R51). -/
def State.startFill (s : State) (i : Fin 4) : State :=
  let s1 := (((s.steepSend i (fun c => some c.drain) cCLOSE).steepSend i (fun c => some c.fill) cOPEN).waterSet i).fanStop i
  let s2 := s1.loadWait i .fill (((s.steepWide i).map (·.fillTimeout)).getD 0 * 600)
  (s2.steepTo i .filling).levelNow i

/-- The commands of a DRAIN phase's start, the drain timeout, and DRAINING (R52). -/
def State.startDrain (s : State) (i : Fin 4) : State :=
  let s1 := (s.steepSend i (fun c => some c.drain) cOPEN).fanStop i
  let s2 := s1.loadWait i .drain (((s.steepWide i).map (·.drainTimeout)).getD 0 * 600)
  (s2.steepTo i .draining).levelNow i

/-- A REST phase's start (R53). -/
def State.startRest (s : State) (i : Fin 4) : State :=
  ((s.fanRun i).onSteep i fun x => { x with phaseTimer := x.durationTimer }).steepTo i .resting

/-- Phase n starts with the fields that are read now (R48, R50). -/
def State.startSteepPhase (s : State) (i : Fin 4) (n : Nat) (f : SteepPhase) : State :=
  let s1 := s.onSteep i fun x =>
    { x with index := n, fields := some f, phaseTimer := none, wait := none, drained := false }
  match f.kind with
  | .wet => s1.startFill i
  | .drain => s1.startDrain i
  | .rest => s1.startRest i

/-- The end of the program: CAST_WAIT, the SHORT_STEEP mark, and the CAST request (R50). -/
def State.steepProgramEnds (s : State) (i : Fin 4) : State :=
  let v := steepNo i
  let s1 := (s.onSteep i fun x => { x with phaseTimer := none, wait := none }).steepTo i .castWait
  let s2 := match s.batchAt v, s.moistureAt v, s.steepWide i with
    | some (n, _), some m, some w =>
      if m < w.target then s1.onSlot n fun b => { b with marks := { b.marks with shortSteep := true } } else s1
    | _, _, _ => s1
  s2.postRequest v

/-- A phase ends: the next one starts, or the program ends (R50). -/
def State.steepPhaseEnds (s : State) (i : Fin 4) : State :=
  let n := (s.steep i).index + 1
  match (s.steepPhases i)[n]? with
  | some f => s.startSteepPhase i n f
  | none => s.steepProgramEnds i

/-- The program begins, or the steep stays in IDLE with its program not loaded (R50). -/
def State.steepBegin (s : State) (i : Fin 4) : State :=
  match (s.steepPhases i)[0]? with
  | some f => s.startSteepPhase i 0 f
  | none => (s.onSteep i fun x => { x with phase := .idle }).postPhase (steepNo i) 255

/-- The batch unit hands the steep a batch that has just become STEEPING (R50). -/
def State.steepHandover (s : State) (i : Fin 4) : State :=
  if s.steepMode i = .auto then s.steepBegin i else s.steepTo i .idle

/-! ## Weighing (R54) -/

/-- WEIGHING begins, or begins again, with the full settle time. -/
def State.startWeighing (s : State) (i : Fin 4) : State :=
  (s.onSteep i fun x => { x with phaseTimer := none }).loadWait i .settle (((s.steepWide i).map (·.settle)).getD 0 * 10)

/-- After the weighing: the program ends early, or the REST phase ends. -/
def State.afterWeighing (s : State) (i : Fin 4) : State :=
  match s.steepWide i, s.moistureAt (steepNo i) with
  | some w, some m => if w.earlyCast ∧ w.target ≤ m then s.steepProgramEnds i else s.steepPhaseEnds i
  | _, _ => s.steepPhaseEnds i

/-- A usable GRAIN_MASS delivery: in the window it is the rest weighing. -/
def State.steepMass (s : State) (i : Fin 4) (kg : Int) : State :=
  let x := s.steep i
  match x.wait with
  | some (.window, _) =>
    if s.steepMode i = .auto ∧ x.phase = .weighing then
      ((s.onSteep i fun x => { x with wait := none }).restWeighing (steepNo i) (kg * 1000)).afterWeighing i
    else s
  | _ => s

/-! ## Expiries (R50 to R54) -/

/-- The phase timer runs in AUTO while the steep is not BLIND (R49). -/
def State.phaseTimerRuns (s : State) (i : Fin 4) : Bool := decide (s.steepMode i = .auto) && !s.steepBlind i

/-- The wait timer runs in AUTO; BLIND stops its settle part alone (R49, R59). -/
def State.waitRuns (s : State) (i : Fin 4) (w : WaitFor) : Bool :=
  decide (s.steepMode i = .auto) && !(s.steepBlind i && decide (w = .settle))

def State.steepPhaseExpires (s : State) (i : Fin 4) : State :=
  let x := s.steep i
  if x.phaseTimer = some 0 ∧ s.phaseTimerRuns i then
    let s1 := s.onSteep i fun y => { y with phaseTimer := none }
    match x.phase with
    | .immersed =>
      (if x.fields.any (·.aeration) then s1.steepSend i (·.aerate) cSTOP else s1).steepPhaseEnds i
    | .resting => if x.fields.any (·.weigh) then (s1.startWeighing i).steepTo i .weighing else s1.steepPhaseEnds i
    | .draining => s1.steepPhaseEnds i
    | .empty | .idle | .filling | .weighing | .castWait | .casting => s1
  else s

/-- The wait for a purpose has run out. -/
def State.waitDue (s : State) (i : Fin 4) (w : WaitFor) : Bool :=
  decide ((s.steep i).wait = some (w, 0)) && s.waitRuns i w

/-- An expiry that raises a vessel fault (R51, R52, R54). -/
def State.steepTimeout (s : State) (i : Fin 4) (w : WaitFor) (c : FaultCode) : State :=
  if s.waitDue i w then (s.onSteep i fun x => { x with wait := none }).vesselFault (steepNo i) c else s

/-- The settle time has run: the weighing window of 60 s opens. -/
def State.steepSettled (s : State) (i : Fin 4) : State :=
  if s.waitDue i .settle then s.loadWait i .window 600 else s

/-! ## Modes (R57, R58) -/

/-- A steep enters OFF; its mode is still the old one (R57). -/
def State.steepOff (s : State) (i : Fin 4) : State :=
  let p := Purpose.vessel (steepNo i)
  let s1 := (s.steepCloseOpen i).sendTo .override p ((s.steepCfg i).bind (·.aerate)) cSTOP
  let s2 := s1.sendTo .override p ((s.steepCfg i).map (·.fan)) cSTOP
  (s2.onSteep i fun x => { x with phaseTimer := none, wait := none, co2Hold := false }).discardWaiting (steepNo i)

/-- A steep enters AUTO and re-enters its present step (R58). The fan STOP of a WET or DRAIN phase is offered after the step's
own commands; the rule gives it no place among them (DESIGN CHOICE, assumption 64). -/
def State.steepAuto (s : State) (i : Fin 4) : State :=
  let x := s.steep i
  match x.phase with
  | .empty | .casting => s
  | .castWait => s.postRequest (steepNo i)
  | .idle => s.steepBegin i
  | .filling => s.startFill i
  | .immersed => (((s.steepSend i (fun c => some c.fill) cCLOSE).aerate i).waterSet i).fanStop i
  | .draining =>
    if x.drained then (s.steepSend i (fun c => some c.drain) cCLOSE).fanStop i else s.startDrain i
  | .resting => s.fanRun i
  | .weighing => s.startWeighing i

/-! ## The cast (R56) -/

/-- The steep becomes EMPTY: it holds no batch (R18, R56). -/
def State.steepEmpty (s : State) (i : Fin 4) : State :=
  (s.onSteep i fun x => { x with phaseTimer := none, wait := none, fields := none, drained := false }).steepTo i .empty

/-- The cast was aborted with the batch left in the steep. -/
def State.steepCastBack (s : State) (i : Fin 4) : State :=
  let s1 := s.steepTo i .castWait
  if s.steepMode i = .auto then s1.postRequest (steepNo i) else s1

end Sys2Proof.Machine
end

