-- ==== Sys2Proof/Machine/Comparator.lean ====
section
/-! DEFINITION. Machine/Comparator.lean: the limit comparators (R31 to R37), the vessel watch and BLIND (R38 to R41), and
the effect of a COMMIT of the MP table on the MPs and the watch timers (R25, R41). -/

namespace Sys2Proof.Machine

/-! ## Effective limits (R31) -/

/-- What a comparator works on: the effective limits, the hysteresis and the settle count. -/
structure Limits where
  lo : Option Int
  hi : Option Int
  hyst : Int
  settle : Nat
  deriving DecidableEq, Repr, Inhabited

/-- The effective limits of an MP with the stage high limit h. -/
def MpEntry.limits (e : MpEntry) (h : Option Int) : Limits :=
  { lo := e.low, hi := h <|> e.high, hyst := (e.hyst.getD 0 : Nat), settle := e.settle }

/-- An MP has a comparator while one of its effective limits is present. -/
def Limits.any (l : Limits) : Bool := l.lo.isSome || l.hi.isSome

/-! ## Table 2-6 -/

/-- v > x, where x is present. -/
def above (v : Int) (x : Option Int) : Bool := x.any fun y => decide (y < v)

/-- v < x, where x is present. -/
def below (v : Int) (x : Option Int) : Bool := x.any fun y => decide (v < y)

/-- The new state on a usable sample v (Table 2-6). Where a stage high limit lies below the low limit, a v between the two is
above the one and below the other: a comparator in NORMAL then takes HIGH, the first row (DESIGN CHOICE, assumption 101). -/
def Limits.next (l : Limits) (from_ : Level) (v : Int) : Level :=
  match from_ with
  | .normal => if above v l.hi then .high else if below v l.lo then .low else .normal
  | .high => if above v (l.hi.map (· - l.hyst)) then .high else if below v l.lo then .low else .normal
  | .low => if below v (l.lo.map (· + l.hyst)) then .low else if above v l.hi then .high else .normal

/-! ## Telling the owner (R33) -/

/-- The BED_TEMP roles. -/
def Role.bed : Role → Bool
  | .bedTemp1 | .bedTemp2 | .bedTemp3 | .bedTemp4 => true
  | _ => false

/-- What an owner is told of a comparator (R33, R37): that it has entered SETTLING, that it has entered HIGH from another
state or memory, or any other change of its standing. -/
inductive CompChange where
  | settling | entersHigh | other
  deriving DecidableEq, Repr, Inhabited

/-- A change of a comparator on its way to the owner that the MP has. -/
structure Told where
  owner : Owner
  role : Role
  change : CompChange
  deriving DecidableEq, Repr, Inhabited

/-- An owner is told of a comparator change of an MP in a role. What each owner does with it is its own chapter's (R55, R73,
R107): a kiln with a SETTLING comparator is HOLDING. -/
def State.tellOwner (s : State) (t : Told) : State :=
  match t.owner with
  | .vessel v => match vesselIs v with
    | .steep i => if t.role = .co2 then s.co2Refresh i else s
    | .comp c => if t.role.bed && t.change = .entersHigh then s.raiseDemand c .urgent else s
    | .kiln k =>
      if t.role.heats then
        if t.change = .settling then s.onKiln k fun y => { y with thermal := .holding }
        else s.retakeThermal k (t.change = .entersHigh)
      else s
  | .turner _ | .run | .none => s

/-- The owners are told of changes, in order. -/
def State.tellAll (s : State) (ts : List Told) : State := ts.foldl State.tellOwner s

/-- A LIMIT notice of MP n. -/
def State.postLimit (s : State) (n : Nat) (l : Level) (v : Int) : State := s.post .limit .mp n l.code v

/-! ## Changes (R32 to R35, R37)

Each change leaves the comparator in its new state, with its notice, and says what its owner is to be told. -/

/-- The change that a comparator makes to its owner by entering a state. -/
def changeTo (left entered : Level) : CompChange := if entered = .high ∧ left ≠ .high then .entersHigh else .other

/-- The end of SETTLING: the evaluation from the remembered state (R35). -/
def State.endSettling (s : State) (n : Nat) (e : MpEntry) (remembered : Level) (v : Int) : State × Told :=
  let l := (e.limits (s.live n).stageHigh).next remembered v
  let s1 := s.onLive n fun x => { x with comp := some (.steady l) }
  (if l = remembered then s1 else s1.postLimit n l v, { owner := e.owner, role := e.role, change := changeTo remembered l })

/-- The comparator of MP n takes a usable sample v (R32, R33, R35). -/
def State.compare (s : State) (n : Nat) (e : MpEntry) (v : Int) : State :=
  match (s.live n).comp with
  | none => s
  | some (.steady l) =>
    let l' := (e.limits (s.live n).stageHigh).next l v
    if l' = l then s
    else ((s.onLive n fun x => { x with comp := some (.steady l') }).postLimit n l' v).tellOwner
      { owner := e.owner, role := e.role, change := changeTo l l' }
  | some (.settling r left) =>
    if 1 < left then s.onLive n fun x => { x with comp := some (.settling r (left - 1)) }
    else
      let p := s.endSettling n e r v
      p.1.tellOwner p.2

/-- The state that a comparator has, or remembers while it is SETTLING. -/
def Comparator.standing : Comparator → Level
  | .steady l => l
  | .settling r _ => r

/-- A limit change (R34): the comparator enters SETTLING, and with a settle count of 0 it is evaluated at once on a
usable last value. A LIMIT notice of this evaluation carries the present process time, which is the time of the event that
posts it (R189), and not the last good time of the value (DESIGN CHOICE, assumption 87). -/
def State.limitChange (s : State) (n : Nat) (e : MpEntry) : State × List Told :=
  let r := ((s.live n).comp.map Comparator.standing).getD .normal
  let s1 := s.onLive n fun x => { x with comp := some (.settling r e.settle) }
  let t : Told := { owner := e.owner, role := e.role, change := .settling }
  if e.settle = 0 then match s1.usableOf n with
    | some v =>
      let p := s1.endSettling n e r v
      (p.1, [t, p.2])
    | none => (s1, [t])
  else (s1, [t])

/-- The notice of a standing that is closed in HIGH or LOW, with the MP's last value (R37). For kind ENCODER it carries the
delta of the last value and leaves out the marker flag that R27 keeps with it (DESIGN CHOICE, assumption 105). -/
def State.postClosed (s : State) (n : Nat) (l : MpLive) : State :=
  match l.comp.map Comparator.standing with
  | some .high | some .low => s.postLimit n .normal ((l.last.map (·.val)).getD 0)
  | some .normal | none => s

/-- A comparator ceases: its standing is closed and the owner is told (R37). -/
def State.ceaseComparator (s : State) (n : Nat) (e : MpEntry) : State × List Told :=
  ((s.onLive n fun x => { x with comp := none }).postClosed n (s.live n),
    [{ owner := e.owner, role := e.role, change := .other }])

/-- After a change of what a kept MP's comparator works on, from old to new: it comes into being, takes a limit change,
or ceases (R31, R34). -/
def State.relimit (s : State) (n : Nat) (e : MpEntry) (old new : Limits) : State × List Told :=
  if new.any then (if old.any ∧ old = new then (s, []) else s.limitChange n e)
  else if old.any then s.ceaseComparator n e
  else (s, [])

/-- A sequencer sets or clears the stage high limit of MP n (R36). -/
def State.setStageHigh (s : State) (n : Nat) (h : Option Int) : State :=
  match s.tables.mp.get n with
  | some e =>
    let old := e.limits (s.live n).stageHigh
    let p := (s.onLive n fun x => { x with stageHigh := h }).relimit n e old (e.limits h)
    p.1.tellAll p.2
  | none => s

/-- The stage high limits of every MP that a vessel has in some roles, duplicates included (R36). The MPs are taken in
ascending number, each whole, with its notice and what its owner is told (DESIGN CHOICE, assumption 81). -/
def State.setStageHighs (s : State) (v : Fin 12) (roles : Role → Bool) (h : Option Int) : State :=
  (s.tables.mp.filter fun e => e.2.owner = .vessel v ∧ roles e.2.role = true).foldl (fun s e => s.setStageHigh e.1 h) s

/-! ## The vessel watch (R39 to R41) -/

/-- BLIND 0 and CLEAR 1, in BLIND notices. -/
abbrev blindSet : Nat := 0
abbrev blindClear : Nat := 1

/-- A vessel's sequencer is told that BLIND was set or has cleared (R59, R69, R110). -/
def State.tellBlind (s : State) (v : Fin 12) (blind : Bool) : State :=
  match vesselIs v with
  | .kiln k => if blind then s.kilnBlinded k else s.kilnSees k
  | .steep _ | .comp _ => s

/-- BLIND clears, with its notice; nothing happens where the flag is clear. -/
def State.clearBlind (s : State) (v : Fin 12) (value : Nat) : State :=
  if (s.vessel v).blind then
    ((s.onVessel v fun r => { r with blind := false }).postVessel .blind v blindClear value).tellBlind v false
  else s

/-- A usable sample of watch MP n of a vessel that is not OFF (R39). -/
def State.watchSample (s : State) (v : Fin 12) (n : Nat) : State :=
  if (s.vessel v).mode = .off then s else (s.loadWatch v).clearBlind v n

/-- The watch timer's expiry (R40). The notice carries the watch interval that is committed at the expiry, also where a COMMIT
of the vessel table has changed it since the timer was loaded (DESIGN CHOICE, assumption 100). -/
def State.watchExpires (s : State) (v : Fin 12) : State :=
  if (s.vessel v).watch = some 0 then
    ((s.onVessel v fun r => { r with watch := none, blind := true }).postVessel .blind v blindSet
      ((s.tables.vessel.watchOf v).getD 0)).tellBlind v true
  else s

/-- The watch stops: on entering OFF, or where a commit takes the last watch MP (R41). -/
def State.stopWatch (s : State) (v : Fin 12) : State :=
  (s.onVessel v fun r => { r with watch := none }).clearBlind v 0

/-- The watch of a vessel after a COMMIT of the MP table (R41); State.commitMp takes the vessels in ascending number (DESIGN CHOICE,
assumption 94). -/
def State.rewatch (s : State) (old : Tbl MpEntry) (v : Fin 12) : State :=
  if (s.vessel v).mode = .off then s
  else match watchMpIn old v, watchMpIn s.tables.mp v with
    | true, false => s.stopWatch v
    | false, true => s.loadWatch v
    | _, _ => s

/-! ## A COMMIT of the MP table (R25) -/

/-- The live state of an MP just created (Table 2-2, R31). -/
def MpLive.created (e : MpEntry) : MpLive :=
  { comp := if (e.limits none).any then some (.steady .normal) else none }

/-- The MP is kept: station, channel and kind are as before. -/
def MpEntry.keeps (new old : MpEntry) : Bool :=
  new.station = old.station && new.channel = old.channel && new.kind = old.kind

/-- A kept MP takes its new entry. -/
def State.keepMp (s : State) (n : Nat) (old new : MpEntry) : State × List Told :=
  let before := old.limits (s.live n).stageHigh
  let s1 := if new.owner ≠ old.owner ∨ new.role ≠ old.role then s.onLive n fun x => { x with stageHigh := none } else s
  s1.relimit n new before (new.limits (s1.live n).stageHigh)

/-- An MP is re-created or emptied: the old standing is closed first (R25, R37). -/
def State.recreateMp (s : State) (n : Nat) (new : Option MpEntry) : State :=
  (s.postClosed n (s.live n)).onIntake fun i => { i with live := i.live.set n (new.map MpLive.created) }

/-- MP number n at the commit. -/
def State.commitMpEntry (s : State) (oldTable : Tbl MpEntry) (n : Nat) : State × List Told :=
  match oldTable.get n, s.tables.mp.get n with
  | none, none => (s, [])
  | some o, some e => if e.keeps o then s.keepMp n o e else (s.recreateMp n (some e), [])
  | _, e => (s.recreateMp n e, [])

/-- Each MP number of a list at the commit, in turn. -/
def State.commitMpEntries (s : State) (oldTable : Tbl MpEntry) : List Nat → State × List Told
  | [] => (s, [])
  | n :: ns =>
    let p := s.commitMpEntry oldTable n
    let q := p.1.commitMpEntries oldTable ns
    (q.1, p.2 ++ q.2)

/-- An accepted COMMIT of the MP table (R25): each MP number in turn; the owners are told when every MP has taken its new
entry, so that no owner meets a table of which only a part is adopted. Then every steep and kiln reads the MPs it now has,
which tells it of the ones that have left it, come to it or gone (DEDUCED, assumption 33). The watch timers follow after all
of this (R25, R41): a BLIND vessel is told as a BLIND one. No rule orders the steeps, the kilns and the watches of the vessels
among themselves: each of the three is taken in ascending number (DESIGN CHOICE, assumption 94). -/
def State.commitMp (s : State) (new : Tbl MpEntry) : State :=
  let old := s.tables.mp
  let p := (s.onTables fun t => { t with mp := new }).commitMpEntries old (List.range 128)
  let s1 := p.1.tellAll p.2
  let s2 := allSteeps.foldl (fun s i => s.co2Refresh i) s1
  let s3 := allKilns.foldl (fun s k => s.retakeThermal k false) s2
  allVessels.foldl (fun s v => s.rewatch old v) s3

end Sys2Proof.Machine
end

