-- ==== Sys2Proof/Machine/Germination.lean ====
section
/-! DEFINITION. Machine/Germination.lean: the compartments of the germination sequencer (R63 to R69, R71, R72): stages,
transfers, modes, the spread test, and the expiries of the stage and interval timers. -/

namespace Sys2Proof.Machine

/-- The stages of the germination program of the batch in a compartment, in the committed table (R63). -/
def State.germStages (s : State) (c : Fin 6) : List GermStage :=
  match s.batchAt (compNo c) with
  | some e => s.tables.germ.stagesOf stageWidth e.2.germProg
  | none => []

/-- A SEQUENCER command to one of a compartment's stations. -/
def State.compSend (s : State) (c : Fin 6) (station : CompCfg → Nat) (code : Nat) : State :=
  s.sendTo .sequencer (.vessel (compNo c)) ((s.compCfg c).map station) code

def State.compSendArg (s : State) (c : Fin 6) (station : CompCfg → Nat) (code : Nat) (arg : Int) : State :=
  s.sendArgTo .sequencer (.vessel (compNo c)) ((s.compCfg c).map station) code arg

/-- The phase state becomes p, and a PHASE notice carries the stage index (R64). -/
def State.compTo (s : State) (c : Fin 6) (p : CompState) : State :=
  (s.onComp c fun x => { x with phase := p }).postPhase (compNo c) (s.comp c).index

/-! ## The spread test (R72) -/

/-- The usable values of a compartment's bed probes: the lowest-numbered MP of each BED_TEMP role. -/
def State.bedProbes (s : State) (c : Fin 6) : List Int :=
  [Role.bedTemp1, .bedTemp2, .bedTemp3, .bedTemp4].filterMap (s.usableRole (.vessel (compNo c)))

/-- The highest minus the lowest of at least two values. -/
def spreadOf (vs : List Int) : Option Int :=
  if 2 ≤ vs.length then match vs.max?, vs.min? with
    | some a, some b => some (a - b)
    | _, _ => none
  else none

/-- The spread test: SPREAD is raised where the bed probes differ by more than the stage's spread limit. -/
def State.spreadTest (s : State) (c : Fin 6) : State :=
  match (s.comp c).fields, spreadOf (s.bedProbes c) with
  | some f, some d =>
    if (s.comp c).index ≠ 255 ∧ f.spread ≠ 0 ∧ (f.spread : Int) < d then s.raiseDemand c .spread else s
  | _, _ => s

/-! ## Stages (R65, R66) -/

/-- The air and fan commands of the present stage (R66). -/
def State.offerAir (s : State) (c : Fin 6) : State :=
  match (s.comp c).fields with
  | some f =>
    ((s.compSendArg c (·.air) cSETPOINT f.air).compSend c (·.fan) cRUN).compSendArg c (·.fan) cSETPOINT f.fan
  | none => s

/-- Stage n starts (R66). R66 places no PHASE notice among its steps: it is posted first, before the stage high limits and
their LIMIT notices, the commands and the spread test (DESIGN CHOICE, assumption 72). -/
def State.startGermStage (s : State) (c : Fin 6) (n : Nat) (f : GermStage) : State :=
  let s1 := (s.onComp c fun x => { x with index := n, fields := some f }).compTo c .germinating
  let s2 := (s1.setStageHighs (compNo c) Role.bed f.bedHigh).onComp c fun x => { x with
    stageTimer := some (f.duration * 600)
    interval := if x.demand.isNone then f.intervalTimer else none }
  (if s2.compMode c = .auto then s2.offerAir c else s2).spreadTest c

/-- The compartment's program begins, or it waits with stage index 255 (R65). -/
def State.germBegin (s : State) (c : Fin 6) : State :=
  match (s.germStages c)[0]? with
  | some f => s.startGermStage c 0 f
  | none =>
    ((s.onComp c fun x => { x with
      index := 255, fields := none, stageTimer := none, interval := none }).compTo c .germinating).setStageHighs
        (compNo c) Role.bed none

/-- The batch unit hands the compartment a batch that has just become GERMINATING (R65). -/
def State.compHandover (s : State) (c : Fin 6) : State :=
  (s.onComp c fun x => { x with faults := 0, demand := none }).germBegin c

/-- After a COMMIT of the germination programs, a compartment at stage index 255 tries again (R65). -/
def State.germRetry (s : State) (c : Fin 6) : State :=
  if (s.comp c).phase = .germinating ∧ (s.comp c).index = 255 ∧ !(s.germStages c).isEmpty then s.germBegin c else s

/-- The program ends: READY, and in AUTO the LOAD request (R66). -/
def State.germEnds (s : State) (c : Fin 6) : State :=
  let s1 := (s.compTo c .ready).onComp c fun x => { x with
    interval := none
    demand := x.demand.filter fun d => d.turner.isSome }
  if s.compMode c = .auto then s1.postRequest (compNo c) else s1

/-- A compartment's program timers run in AUTO and GERMINATING while it is not BLIND (R64). -/
def State.compTimersRun (s : State) (c : Fin 6) : Bool :=
  decide (s.compMode c = .auto) && decide ((s.comp c).phase = .germinating) && !s.compBlind c

/-- The stage timer's expiry (R66). -/
def State.stageExpires (s : State) (c : Fin 6) : State :=
  if (s.comp c).stageTimer = some 0 ∧ s.compTimersRun c then
    let s1 := s.onComp c fun x => { x with stageTimer := none }
    let n := (s.comp c).index + 1
    match (s.germStages c)[n]? with
    | some f => s1.startGermStage c n f
    | none => s1.germEnds c
  else s

/-- The interval timer's expiry raises a SCHEDULED demand (R71). -/
def State.intervalExpires (s : State) (c : Fin 6) : State :=
  if (s.comp c).interval = some 0 ∧ s.compTimersRun c then
    (s.onComp c fun x => { x with interval := none }).raiseDemand c .scheduled
  else s

/-! ## Transfers (R67) -/

/-- The compartment enters EMPTY. A stage index 255 stands only while a batch waits for its program (R64), so it becomes 0;
R67 does not list the index, and any other is kept, in EMPTY and in RECEIVING (DESIGN CHOICE, assumption 65). The PHASE notice
is posted before the stage high limits are cleared, with the LIMIT notices of that (DESIGN CHOICE, assumption 72). -/
def State.compEmpty (s : State) (c : Fin 6) : State :=
  (((s.onComp c fun x => { x with
    index := if x.index = 255 then 0 else x.index
    stageTimer := none, interval := none, demand := none, faults := 0, fields := none }).compTo c .empty).setStageHighs
      (compNo c) Role.bed none)

/-- A LOAD was aborted with the batch left in the compartment. -/
def State.compBack (s : State) (c : Fin 6) : State :=
  let s1 := s.compTo c .ready
  if s.compMode c = .auto then s1.postRequest (compNo c) else s1

/-! ## Modes (R68) -/

/-- A compartment enters OFF; its mode is still the old one. -/
def State.compOff (s : State) (c : Fin 6) : State :=
  ((s.sendTo .override (.vessel (compNo c)) ((s.compCfg c).map (·.fan)) cSTOP).onComp c fun x =>
    { x with stageTimer := none, interval := none }).discardWaiting (compNo c)

/-- A compartment enters AUTO. -/
def State.compAuto (s : State) (c : Fin 6) : State :=
  let s1 := match (s.comp c).phase with
    | .germinating => if (s.comp c).index ≠ 255 then s.offerAir c else s
    | .ready => s.postRequest (compNo c)
    | .empty | .receiving | .unloading => s
  s1.turnerArbiter

/-! ## The turners' timers (R81) -/

def State.moveExpires (s : State) (t : Fin 2) : State :=
  if (s.turner t).moveTimer = some 0 then s.turnerFault t .moveTimeout else s

def State.passExpires (s : State) (t : Fin 2) : State :=
  if (s.turner t).passTimer = some 0 then s.turnerFault t .passTimeout else s

end Sys2Proof.Machine
end

