-- ==== Sys2Proof/Machine/Kiln.lean ====
section
/-! DEFINITION. Machine/Kiln.lean: the kiln sequencer (R92 to R100, R112 to R114): stages, end tests, the break ring,
cooling, transfers, peat tracking, modes, and the expiries of a kiln's timers. -/

namespace Sys2Proof.Machine

/-- The stages of the kiln program of the batch in a kiln, in the committed table (R90). -/
def State.kilnStages (s : State) (k : Fin 2) : List KilnStage :=
  match s.batchAt (kilnNo k) with
  | some e => s.tables.kiln.stagesOf stageWidth e.2.kilnProg
  | none => []

/-- The role whose stage high limits a kiln's stages set (R93). -/
def Role.airOn : Role → Bool
  | .airOnTemp => true
  | _ => false

/-- The phase state becomes p, and a PHASE notice carries the stage index (R91). -/
def State.kilnTo (s : State) (k : Fin 2) (p : KilnState) : State :=
  (s.onKiln k fun x => { x with phase := p }).postPhase (kilnNo k) (s.kiln k).index

/-! ## Commands of a stage (R93 step 7) -/

/-- SETPOINT to the air station, RUN and SETPOINT to the fan station. -/
def State.offerKilnAir (s : State) (k : Fin 2) (f : KilnStage) : State :=
  ((s.kilnSendArg k (·.air) cSETPOINT f.air).kilnSend k (·.fan) cRUN).kilnSendArg k (·.fan) cSETPOINT f.fan

/-- The commands of step 7: air and fan, the burner as the phase state has it, and the peat feeder. -/
def State.offerStage (s : State) (k : Fin 2) (f : KilnStage) : State :=
  let s1 := s.offerKilnAir k f
  if (s.kiln k).phase = .firing then (s1.offerBurner k).offerPeat k else s1.kilnSendArg k (·.burner) cSETPOINT 0

/-! ## Stage start and end (R93, R95 to R97) -/

/-- The phase state and grant that a stage start or a re-entry in AUTO computes (R102). -/
def State.grantFor (s : State) (k : Fin 2) (f : KilnStage) : KilnState × Nat :=
  let g := s.room k f.request
  if f.minDuty ≤ g then (.firing, g) else (.waitHeat, 0)

/-- Stage n starts (R93). -/
def State.startKilnStage (s : State) (k : Fin 2) (n : Nat) (f : KilnStage) : State :=
  let s1 := (s.onKiln k fun x => { x with index := n, fields := some f }).setStageHighs (kilnNo k) Role.airOn f.airHigh
  let s2 := s1.onKiln k fun x => { x with
    ring := [], streak := 0, declared := false, limitEnded := false, firing := 0, minutes := 0, minTaken := false }
  if s2.kilnMode k = .auto then
    let g := s2.grantFor k f
    (((s2.kilnTo k g.1).changeGrant k g.2).evalGate k).offerStage k f
  else (s2.kilnTo k .firing).evalGate k

/-- Cooling's commands: STOP to the burner, RUN and SETPOINT with the cool fan flow to the fan (R97). -/
def State.offerCooling (s : State) (k : Fin 2) : State :=
  ((s.kilnSend k (·.burner) cSTOP).kilnSend k (·.fan) cRUN).kilnSendArg k (·.fan) cSETPOINT
    (((s.kilnWide k).map (·.coolFan)).getD 0 : Nat)

/-- The program ends: the kiln enters COOLING (R97). -/
def State.kilnCools (s : State) (k : Fin 2) : State :=
  let s1 := (s.onKiln k fun x => { x with limitEnded := false }).kilnTo k .cooling
  let s2 := (s1.changeGrant k 0).onKiln k fun x => { x with step := none }
  let s3 := (s2.evalGate k).onKiln k fun x => { x with cool := (s.kilnWide k).map fun w => w.coolDur * 600 }
  if s3.kilnMode k = .auto then s3.offerCooling k else s3

/-- A stage ends: the next index starts if the committed program has it, else the program ends (R95). -/
def State.kilnStageEnds (s : State) (k : Fin 2) : State :=
  let n := (s.kiln k).index + 1
  match (s.kilnStages k)[n]? with
  | some f => s.startKilnStage k n f
  | none => s.kilnCools k

/-! ## End tests (R95, R96) -/

/-- The end condition on the values present (Table 5-6). -/
def State.endMet (s : State) (k : Fin 2) (f : KilnStage) : Bool :=
  match f.endKind with
  | .moisture => (s.moistureAt (kilnNo k)).any fun m => decide ((m : Int) ≤ f.endValue)
  | .airOff => (s.usableRole (.vessel (kilnNo k)) .airOffTemp).any fun v => decide (f.endValue ≤ v)
  | .brk => (s.kiln k).declared
  | .time => true

/-- A kiln whose end tests are made: FIRING in AUTO, the limit-ended flag clear. -/
def State.testsEnd (s : State) (k : Fin 2) : Bool :=
  decide ((s.kiln k).phase = .firing) && decide (s.kilnMode k = .auto) && !(s.kiln k).limitEnded

/-- The end test, which is made once the firing time has reached the minimum duration (R95). -/
def State.endTest (s : State) (k : Fin 2) : State :=
  match (s.kiln k).fields with
  | some f =>
    if s.testsEnd k ∧ f.minDur * 600 ≤ (s.kiln k).firing ∧ s.endMet k f then s.kilnStageEnds k else s
  | none => s

/-- The end test at an event that tests the end kind e alone (Table 5-6). -/
def State.endTestOf (s : State) (k : Fin 2) (e : EndKind) : State :=
  if (s.kiln k).fields.any (fun f => f.endKind = e) then s.endTest k else s

/-- The stage ends by limit (R96). -/
def State.limitEnds (s : State) (k : Fin 2) : State :=
  match (s.kiln k).fields with
  | some f =>
    let x := s.kiln k
    let s1 := s.postVessel .stageLimit (kilnNo k) f.endKind.code x.index
    if ((s.kilnStages k)[x.index + 1]?).isNone ∧ f.endKind ≠ .time then
      (s1.onKiln k fun y => { y with limitEnded := true }).vesselFault (kilnNo k) .stageLimit
    else s1.kilnStageEnds k
  | none => s

/-! ## The break (R99, R100) -/

/-- The stage firing time advances (R94). -/
def State.firingRuns (s : State) (k : Fin 2) : Bool :=
  decide ((s.kiln k).phase = .firing) && decide (s.kilnMode k = .auto) && !s.kilnBlind k &&
    decide ((s.kiln k).burner ≠ some 3)

/-- A ring of at most six points with a new one at its end. -/
def ringAdd (r : List Int) (v : Int) : List Int := (if 6 ≤ r.length then r.drop 1 else r) ++ [v]

/-- The rise of a full ring: the newest point minus the oldest. -/
def ringRise (r : List Int) : Option Int :=
  if r.length = 6 then match r.head?, r.getLast? with
    | some a, some b => some (b - a)
    | _, _ => none
  else none

/-- The ring is evaluated after a point was appended (R100). -/
def State.evalRing (s : State) (k : Fin 2) (f : KilnStage) : State :=
  match ringRise (s.kiln k).ring with
  | some rise =>
    let counts := decide ((f.breakRise : Int) ≤ rise) && (s.moistureAt (kilnNo k)).any fun m => decide (m ≤ f.breakCeiling)
    let s1 := s.onKiln k fun x => { x with streak := if counts then x.streak + 1 else 0 }
    if 3 ≤ (s1.kiln k).streak ∧ (s1.kiln k).declared = false then
      ((s1.onKiln k fun x => { x with declared := true }).postVessel .phase (kilnNo k) breakCode rise).endTestOf k .brk
    else s1
  | none => s

/-- A minute mark of the firing time that has not been taken yet. Where the firing time stops at the very mark, its point
waits until the firing time runs again (DESIGN CHOICE, assumption 85). -/
def State.minuteDue (s : State) (k : Fin 2) : Bool :=
  s.firingRuns k && decide ((s.kiln k).minutes < (s.kiln k).firing / 600)

/-- A break point is taken at a minute mark (R99). -/
def State.takeBreakPoint (s : State) (k : Fin 2) : State :=
  if s.minuteDue k then
    let s1 := s.onKiln k fun x => { x with minutes := x.minutes + 1 }
    match s.usableRole (.vessel (kilnNo k)) .airOffTemp, (s.kiln k).fields with
    | some v, some f => (s1.onKiln k fun x => { x with ring := ringAdd x.ring v }).evalRing k f
    | some v, none => s1.onKiln k fun x => { x with ring := ringAdd x.ring v }
    | none, _ => s1.onKiln k fun x => { x with streak := 0 }
  else s

/-- Every minute mark that is due. -/
def State.takeDuePoints (s : State) (k : Fin 2) : State :=
  (List.range ((s.kiln k).firing / 600 - (s.kiln k).minutes)).foldl (fun s _ => s.takeBreakPoint k) s

/-- The firing time has reached the minimum duration, and its test has not been made. -/
def State.minimumDue (s : State) (k : Fin 2) : Bool :=
  s.testsEnd k && !(s.kiln k).minTaken && (s.kiln k).fields.any fun f => decide (f.minDur * 600 ≤ (s.kiln k).firing)

/-- The firing time has reached the maximum duration. -/
def State.maximumDue (s : State) (k : Fin 2) : Bool :=
  s.testsEnd k && (s.kiln k).fields.any fun f => decide (f.maxDur * 600 ≤ (s.kiln k).firing)

/-- The test at the minimum duration. -/
def State.minimumTest (s : State) (k : Fin 2) : State :=
  if s.minimumDue k then (s.onKiln k fun x => { x with minTaken := true }).endTest k else s

/-- The firing time reaches the minimum: the break point of that minute first, then the test (R94, R95). -/
def State.kilnMinimum (s : State) (k : Fin 2) : State :=
  if s.minimumDue k then (s.takeDuePoints k).minimumTest k else s

/-- The firing time reaches the maximum: the break point, the test of R95, and the end by limit where it fails (R96). -/
def State.kilnMaximum (s : State) (k : Fin 2) : State :=
  if s.maximumDue k then
    let s1 := s.takeDuePoints k
    let s2 := if s1.maximumDue k then (s1.onKiln k fun x => { x with minTaken := true }).endTest k else s1
    if s2.maximumDue k then s2.limitEnds k else s2
  else s

/-! ## Cooling's end (R97) -/

/-- The cool timer runs in AUTO while the kiln is not BLIND. -/
def State.coolRuns (s : State) (k : Fin 2) : Bool := decide (s.kilnMode k = .auto) && !s.kilnBlind k

def State.coolExpires (s : State) (k : Fin 2) : State :=
  if (s.kiln k).cool = some 0 ∧ s.coolRuns k then
    let s1 := ((s.onKiln k fun x => { x with cool := none }).kilnSend k (·.fan) cSTOP).kilnTo k .readyStrip
    if s.kilnMode k = .auto then s1.postRequest (kilnNo k) else s1
  else s

/-! ## Transfers (R92, R98) -/

/-- The batch unit hands the kiln a batch that has just become KILNING (R92). -/
def State.kilnBegin (s : State) (k : Fin 2) : State :=
  match (s.kilnStages k)[0]? with
  | some f => s.startKilnStage k 0 f
  | none =>
    let s1 := (s.onKiln k fun x => { x with
      index := 255, fields := none, firing := 0, minutes := 0, minTaken := false }).kilnTo k .waitHeat
    ((s1.changeGrant k 0).setStageHighs (kilnNo k) Role.airOn none).evalGate k

def State.kilnHandover (s : State) (k : Fin 2) : State :=
  (s.onKiln k fun x => { x with peatTime := none, peatRem := 0 }).kilnBegin k

/-- After a COMMIT of the kiln programs, a kiln at stage index 255 tries again (R92). -/
def State.kilnRetry (s : State) (k : Fin 2) : State :=
  if (s.kiln k).phase = .waitHeat ∧ (s.kiln k).index = 255 ∧ !(s.kilnStages k).isEmpty then s.kilnBegin k else s

/-- The kiln enters EMPTY (R98). The PHASE notice is posted before the stage high limits are cleared, with the LIMIT notices of
that (DESIGN CHOICE, assumption 72). -/
def State.kilnEmpty (s : State) (k : Fin 2) : State :=
  let s1 := (s.onKiln k fun x => { x with index := 0 }).kilnTo k .empty
  let s2 := (s1.setStageHighs (kilnNo k) Role.airOn none).changeGrant k 0
  (s2.onKiln k fun x => { x with
    cool := none, step := none, ring := [], peatTime := none, peatRem := 0, fields := none }).evalGate k

/-- A STRIP was aborted with the batch left in the kiln. -/
def State.kilnBack (s : State) (k : Fin 2) : State :=
  let s1 := s.kilnTo k .readyStrip
  if s.kilnMode k = .auto then s1.postRequest (kilnNo k) else s1

/-! ## Deliveries (R94, R95, R111, R112) -/

/-- The batch unit hands back M: the end test of a MOISTURE stage, and then the peat gate (R95, R111). -/
def State.kilnMoisture (s : State) (k : Fin 2) : State := (s.endTestOf k .moisture).evalGate k

/-- A usable PEAT_STATE delivery (R112). The difference of process time is taken modulo 2^32 (DESIGN CHOICE, assumption 95). -/
def State.kilnPeat (s : State) (k : Fin 2) (v : Int) : State :=
  let s1 := s.onKiln k fun x => { x with peat := some v }
  match s.batchAt (kilnNo k) with
  | some (n, _) =>
    if v = 1 then
      let x := s.kiln k
      let sum := x.peatRem + (match x.peatTime with
        | some t => min 600 (elapsed s.timeNow t)
        | none => 0)
      (s1.onSlot n fun b => { b with peatSeconds := satAdd max32 b.peatSeconds (sum / 10) }).onKiln k fun x =>
        { x with peatRem := sum % 10, peatTime := some s.timeNow }
    else s1.onKiln k fun x => { x with peatTime := none }
  | none => s1

/-! ## Modes (R113, R114) -/

/-- A kiln enters OFF; its mode is still the old one. The other kiln re-evaluates once the mode is OFF (R113). Both STOPs are
offered at stage index 255 too, where R92 offers no commands (DESIGN CHOICE, assumption 84). -/
def State.kilnOff (s : State) (k : Fin 2) : State :=
  let p := Purpose.vessel (kilnNo k)
  let s1 := ((s.setGrant k 0).onKiln k fun x => { x with step := none }).setGate k false
  ((s1.sendTo .override p ((s.kilnCfg k).map (·.burner)) cSTOP).sendTo .override p ((s.kilnCfg k).map (·.fan))
    cSTOP).discardWaiting (kilnNo k)

/-- A kiln enters AUTO and re-enters its present step (R114). -/
def State.kilnAuto (s : State) (k : Fin 2) : State :=
  let x := s.kiln k
  match x.phase, x.fields with
  | .waitHeat, some f =>
    if x.index = 255 then s
    else
      let g := s.grantFor k f
      if g.1 = .firing then
        let s1 := ((s.kilnTo k .firing).changeGrant k g.2).evalGate k
        (s1.offerKilnAir k f).offerBurner k
      else (s.changeGrant k 0).offerKilnAir k f
  | .firing, some f =>
    if x.limitEnded then s.kilnCools k
    else
      let g := s.grantFor k f
      if g.1 = .firing then ((s.changeGrant k g.2).offerStage k f).endTest k
      else ((s.kilnTo k .waitHeat).changeGrant k 0).evalGate k
  | .cooling, _ => s.offerCooling k
  | .readyStrip, _ => s.postRequest (kilnNo k)
  | _, _ => s

end Sys2Proof.Machine
end

