-- ==== Sys2Proof/Machine/Transfer.lean ====
section
/-! DEFINITION. Machine/Transfer.lean: the transfer run (chapter 6): the arbiter, the start, the transferred mass, the
draws, clearing and DONE, aborts, and the expiries of its four timers; and the outcome that the batch unit takes (R10). -/

namespace Sys2Proof.Machine

/-! ## Kinds and routes (Table 6-1, R119) -/

/-- Table 6-1's source class. -/
def TransferKind.sends (k : TransferKind) (v : Fin 12) : Bool :=
  match k, vesselIs v with
  | .cast, .steep _ => true
  | .load, .comp _ => true
  | .strip, .kiln _ => true
  | _, _ => false

/-- Table 6-1's destination class. -/
def TransferKind.takes (k : TransferKind) (d : Fin 13) : Bool :=
  match k, vesselOf d.val with
  | .cast, some v => match vesselIs v with
    | .comp _ => true
    | _ => false
  | .load, some v => match vesselIs v with
    | .kiln _ => true
    | _ => false
  | .strip, none => true
  | _, _ => false

/-- The entry index of a pair's route: in order of source vessel and then destination vessel (Table 11-4). -/
def routeIndex (v : Fin 12) (d : Fin 13) : Nat :=
  match vesselIs v with
  | .steep i => i.val * 6 + (d.val - 4)
  | .comp c => 24 + c.val * 2 + (d.val - 10)
  | .kiln k => 36 + k.val

/-- The committed route of a pair, where it has one. -/
def State.routeOf (s : State) (v : Fin 12) (d : Fin 13) : Option (List RouteStep) :=
  s.tables.transfer.routes.get (routeIndex v d)

/-- The phase state of the source that Table 6-1 gives for its kind. -/
def State.awaitsTransfer (s : State) (v : Fin 12) : Bool :=
  match vesselIs v with
  | .steep i => (s.steep i).phase = .castWait
  | .comp c => (s.comp c).phase = .ready
  | .kiln k => (s.kiln k).phase = .readyStrip

/-- The vessel's phase state is EMPTY. -/
def State.phaseEmpty (s : State) (v : Fin 12) : Bool :=
  match vesselIs v with
  | .steep i => (s.steep i).phase = .empty
  | .comp c => (s.comp c).phase = .empty
  | .kiln k => (s.kiln k).phase = .empty

/-- AUTO or MANUAL. -/
def Mode.active : Mode → Bool
  | .auto | .manual => true
  | .off | .hold => false

/-! ## The arbiter (R120, R121) -/

/-- A destination is free (R120). -/
def State.destFree (s : State) (d : Fin 13) : Bool :=
  match vesselOf d.val with
  | none => true
  | some v => s.phaseEmpty v && (s.vessel v).mode.active && decide (s.transfer.reserved ≠ some v)

def allDests : List (Fin 13) := [0, 1, 2, 3, 4, 5, 6, 7, 8, 9, 10, 11, 12]

/-- The destination of a request at this scan, free and with a route from the source (R120, R121). -/
def State.destOf (s : State) (r : TransferReq) : Option (Fin 13) :=
  let open_ (d : Fin 13) : Bool := s.destFree d && (s.routeOf r.source d).isSome
  match r.dest with
  | some d => if open_ d then some d else none
  | none => allDests.find? fun d => r.kind.takes d && open_ d

/-- A turner is working in a compartment: in a pass there, or in FAULT with it assigned (R78). -/
def State.turnerWorks (s : State) (v : Nat) : Bool :=
  allTurners.any fun t =>
    let x := s.turner t
    (x.assigned.any fun c => decide ((compNo c).val = v)) &&
      (x.state = .passOut || x.state = .passBack || x.state = .fault)

/-- The usable present value of the WEIGHER_TOTAL MP. -/
def State.weigher (s : State) : Option Int := s.usableRole .run .weigherTotal

/-- The destination of a request that is eligible now (R121). A TRANSFER table without its entry 38 gives the run neither
times nor a drawer: no request is eligible then (DESIGN CHOICE, assumption 10). -/
def State.eligible (s : State) (r : TransferReq) : Option (Fin 13) :=
  match s.destOf r with
  | some d =>
    if (s.vessel r.source).mode.active && !s.turnerWorks r.source.val && !s.turnerWorks d.val && s.weigher.isSome &&
        s.excise.canStart r.kind && !s.trunk.lost && s.tables.transfer.run.isSome then some d
    else none
  | none => none

/-! ## The running transfer -/

/-- The running transfer, changed by f. -/
def State.onRun (s : State) (f : Running → Running) : State :=
  s.onTransfer fun t => { t with running := t.running.map f }

/-- A TRANSFER notice: source class TRANSFER, index the source vessel (Table 6-4). -/
def State.postTransfer (s : State) (v : Fin 12) (st : TransferState) (value : Int) : State :=
  s.post .transfer .transfer v.val st.code value

/-- The transferred mass in kg, rounded down. -/
def Running.kg (r : Running) : Nat := r.mass / 1000

/-- The times of the committed table, read when a timer is loaded (R119). -/
def State.runTimer (s : State) (f : RunCfg → Nat) : Timer := s.tables.transfer.run.map fun c => f c * 10

/-- ROUTE with the step's number is offered to each route station in the order of the route (R122). -/
def State.offerRoutes (s : State) : List RouteStep → State × List RouteLeg
  | [] => (s, [])
  | r :: rs =>
    let leg : RouteLeg := { step := r, serial := s.filter.serial }
    let p := (s.sendArg .sequencer .route r.station cROUTE r.number).offerRoutes rs
    (p.1, leg :: p.2)

/-! ## Draws (R126, R127) -/

/-- The sample number of the drawer's last value, where that value reports at rest. -/
def State.drawerAtRest (s : State) : Option Int :=
  ((s.mpOf .run .drawerState).bind fun n => (s.live n).last).bind fun v => if 0 ≤ v.val then some v.val else none

/-- Draw k is offered. -/
def State.offerDraw (s : State) (r : Running) : State :=
  let out : DrawOut :=
    { index := r.next, late := decide (r.state = .clearing), massAt := r.mass, sampleAt := s.drawerAtRest
      serial := s.filter.serial }
  (s.onRun fun r => { r with out := some out, next := r.next + 1, draw := s.runTimer (·.drawLimit) }).sendTo .sequencer
    .draw (s.tables.transfer.run.map (·.drawer)) cDRAW

/-- The draw test (R126). -/
def State.drawTest (s : State) : State :=
  match s.transfer.running with
  | some r =>
    match r.points[r.next]? with
    | some p =>
      if r.out.isNone ∧ ((r.state = .running ∧ p ≤ r.mass) ∨ r.state = .clearing) then s.offerDraw r else s
    | none => s
  | none => s

/-! ## States of the transfer -/

/-- The transfer enters a state that carries the transferred mass in its notice. -/
def State.runTo (s : State) (st : TransferState) (f : Running → Running) : State :=
  let s1 := s.onRun fun r => { f r with state := st }
  match s1.transfer.running with
  | some r => s1.postTransfer r.source st r.kg
  | none => s1

/-- The transfer enters RUNNING from ROUTING (R124). -/
def State.enterRunning (s : State) : State :=
  ((s.runTo .running fun r => { r with routeTimer := none }).onRun fun r => { r with
    noFlow := s.runTimer (·.noFlow) }).drawTest

/-- The transfer enters CLEARING (R128). -/
def State.enterClearing (s : State) : State :=
  (s.runTo .clearing fun r => { r with
    noFlow := none, runOn := s.runTimer (·.runOn), ranOn := false }).drawTest

/-- The source's empty MP: LEVEL for a steep, GRAIN_MASS for a compartment or kiln (R125). -/
def emptyRole (v : Fin 12) : Role :=
  match vesselIs v with
  | .steep _ => .level
  | .comp _ | .kiln _ => .grainMass

/-- A value of the empty MP that says the source is empty. -/
def State.saysEmpty (s : State) (v : Fin 12) (x : Int) : Bool :=
  match vesselIs v with
  | .steep i => (s.steepCfg i).any fun c => decide (x ≤ (c.empty : Int))
  | .comp _ | .kiln _ => s.tables.transfer.run.any fun c => decide (x ≤ (c.residue : Int))

/-- The source-empty test of RUNNING on a value of the empty MP. -/
def State.emptyTest (s : State) (x : Int) : State :=
  match s.transfer.running with
  | some r => if r.state = .running ∧ s.saysEmpty r.source x then s.enterClearing else s
  | none => s

/-! ## The outcome (R10, R129, R132) -/

/-- The batch state in which a transfer's source holds the batch, and the one it has during the transfer (Table 6-1). -/
def TransferKind.held : TransferKind → BatchState
  | .cast => .steeping
  | .load => .germinating
  | .strip => .kilning

def TransferKind.moving : TransferKind → BatchState
  | .cast => .casting
  | .load => .loading
  | .strip => .stripping

/-- The batch state at the destination. -/
def TransferKind.arrived : TransferKind → BatchState
  | .cast => .germinating
  | .load => .kilning
  | .strip => .done

/-- The start time of a stage that a batch enters (R10). -/
def Batch.enters (b : Batch) (st : BatchState) (now : Nat) : Batch :=
  let c := { b with state := st }
  match st with
  | .steeping => { c with steepStart := some now }
  | .germinating => { c with germStart := some now }
  | .kilning => { c with kilnStart := some now }
  | _ => c

/-- The batch unit takes the outcome of the running transfer: the batch is left at the destination or at the source, and
the integrators that the transfer touched are cleared (R10, R12). -/
def State.batchOutcome (s : State) (r : Running) (placed : Bool) : State :=
  let s1 := match s.batchAt r.source with
    | some (n, _) =>
      s.onSlot n fun b =>
        if placed then { b.enters r.kind.arrived s.timeNow with vessel := r.dest.val }
        else b.enters r.kind.held s.timeNow
    | none => s
  let s2 := s1.clearInteg r.source
  match vesselOf r.dest.val with
  | some v => s2.clearInteg v
  | none => s2

/-- The vessel a batch has left, or was not brought to, becomes EMPTY. -/
def State.vesselEmpties (s : State) (v : Fin 12) : State :=
  match vesselIs v with
  | .steep i => s.steepEmpty i
  | .comp c => s.compEmpty c
  | .kiln k => s.kilnEmpty k

/-- The destination's sequencer is handed the batch. -/
def State.vesselReceives (s : State) (v : Fin 12) : State :=
  match vesselIs v with
  | .steep _ => s
  | .comp c => s.compHandover c
  | .kiln k => s.kilnHandover k

/-- An aborted transfer leaves the batch in the source. -/
def State.vesselKeeps (s : State) (v : Fin 12) : State :=
  match vesselIs v with
  | .steep i => s.steepCastBack i
  | .comp c => s.compBack c
  | .kiln k => s.kilnBack k

/-- The two sequencers take the end of a transfer: the one that holds the batch, and then the other (R10, R56, R67,
R98). -/
def State.tellEnd (s : State) (r : Running) (placed : Bool) : State :=
  let d := vesselOf r.dest.val
  if placed then
    (match d with
      | some v => s.vesselReceives v
      | none => s).vesselEmpties r.source
  else
    let s1 := s.vesselKeeps r.source
    match d with
    | some v => s1.vesselEmpties v
    | none => s1

/-- The running record is removed and the run becomes idle; the arbiter scans. -/
def State.runIdle (s : State) : State := (s.onTransfer fun t => { t with running := none }).emit .scan

/-- An entry about the running transfer, but for its kind's own fields (Table 7-3). -/
def Running.entry (r : Running) (kind quantity computed : Nat) : Entry :=
  { number := 0, kind, vessel := r.source.val, batch := r.batchId, quantity, computed, a1 := r.dest.val }

/-- The deviation in per mille: floor(|T - E| x 1000 / E) (R129). -/
def deviation (t e : Nat) : Nat := (max t e - min t e) * 1000 / e

def TransferKind.entryKind : TransferKind → Nat
  | .cast => kCAST
  | .load => kLOAD
  | .strip => kSTRIP

/-- STOP is offered to each route station with OVERRIDE origin; the serials of the offers, in order. -/
def State.offerStops (s : State) (p : Purpose) : List RouteLeg → State × List StopOut
  | [] => (s, [])
  | l :: ls =>
    let o : StopOut := { serial := s.filter.serial }
    let q := (s.send .override p l.step.station cSTOP).offerStops p ls
    (q.1, o :: q.2)

/-- The transfer reaches DONE (R129). -/
def State.transferDone (s : State) (r : Running) : State :=
  let s0 := s.onRun fun r => { r with state := .done, runOn := none }
  let s1 := (s0.offerStops (.stopDone r.source) r.route).1
  let dev := deviation r.mass r.expected
  let deviates := decide (s.excise.now.tables.tolerance < dev)
  let s2 := if deviates then match s1.batchAt r.source with
      | some (n, _) => s1.onSlot n fun b => { b with marks := { b.marks with massDeviation := true } }
      | none => s1
    else s1
  let e := { r.entry r.kind.entryKind r.mass r.expected with flags := if deviates then fDEVIATION else 0 }
  let s3 := ((s2.writeTransferEntry e).releaseEntries).closeEvent false
  let s4 := s3.onTransfer fun t => { t with reserved := none }
  let s5 := (s4.batchOutcome r true).tellEnd r true
  (s5.postTransfer r.source .done dev).runIdle

/-- DONE is reached in CLEARING when the run-on has expired and every draw has completed (R128). -/
def State.doneTest (s : State) : State :=
  match s.transfer.running with
  | some r =>
    if r.state = .clearing ∧ r.ranOn ∧ r.out.isNone ∧ r.points.length ≤ r.next then s.transferDone r else s
  | none => s

/-! ## Aborts (R131, R132) -/

/-- The abort completes: every STOP has been reported (R132). -/
def State.abortDone (s : State) (r : Running) : State :=
  let placed := decide (r.expected ≤ 2 * r.mass)
  let cause := (r.cause.map AbortCause.code).getD 0
  let s1 := match s.batchAt r.source with
    | some (n, _) => s.onSlot n fun b => { b with marks := { b.marks with disturbed := true } }
    | none => s
  let e := { r.entry kABORTED r.mass r.expected with a0 := cause }
  let s2 := ((s1.writeTransferEntry e).releaseEntries).closeEvent false
  let s3 := s2.onTransfer fun t => { t with reserved := none }
  let s4 := (s3.batchOutcome r placed).tellEnd r placed
  let value : Int := if r.stops.any (·.failed) then -(cause : Int) else cause
  let s5 := (s4.postTransfer r.source .aborted value).onTransfer fun t => { t with running := none }
  let s6 := match s5.mgmt.plant with
    | some p => if p.cls = 5 ∧ p.code = 3 then s5.endLong .plant .ok 0 else s5
    | none => s5
  s6.emit .scan

/-- The run has stopped when the filter has reported each STOP (R131). -/
def State.abortTest (s : State) : State :=
  match s.transfer.running with
  | some r => if r.state = .aborted ∧ r.stops.all (·.settled) then s.abortDone r else s
  | none => s

/-- An abort begins, unless one is already under way (R131). -/
def State.abortRun (s : State) (c : AbortCause) : State :=
  match s.transfer.running with
  | some r =>
    match r.state with
    | .routing | .running | .stalled | .clearing =>
      let s1 := s.onRun fun r => { r with
        state := .aborted, cause := some c, routeTimer := none, noFlow := none, runOn := none, draw := none, out := none }
      let p := s1.offerStops .stopAbort r.route
      (p.1.onRun fun r => { r with stops := p.2 }).abortTest
    | .done | .aborted => s
  | none => s

/-- The filter reports a STOP of the abort (R131): accepted, failed or withdrawn. A STOP that is not of the running transfer
changes nothing (DESIGN CHOICE, assumption 96). -/
def State.stopReported (s : State) (rep : Report) (serial : Nat) : State :=
  (s.onRun fun r => { r with stops := r.stops.map fun o =>
    if o.serial = serial then { o with settled := true, failed := o.failed || decide (rep = .failed) } else o }).abortTest

/-! ## Draw completion and reports (R124, R127) -/

/-- The entry of a completed draw (Table 7-3). -/
def Running.drawEntry (r : Running) (o : DrawOut) (sample : Int) : Entry :=
  let b := beInt 4 sample
  { number := 0, kind := kDRAW, flags := if o.late then fLATE else 0, vessel := r.source.val, draw := o.index
    batch := r.batchId, quantity := o.massAt, computed := r.points[o.index]?.getD 0
    a0 := (b[0]?.map (·.toNat)).getD 0, a1 := (b[1]?.map (·.toNat)).getD 0
    a2 := (b[2]?.map (·.toNat)).getD 0, a3 := (b[3]?.map (·.toNat)).getD 0 }

/-- The outstanding draw completes once the DRAW is confirmed and a new sample number has been reported (R127). -/
def State.drawComplete (s : State) : State :=
  match s.transfer.running with
  | some r =>
    match r.out with
    | some o =>
      match o.report with
      | some sample =>
        if o.confirmed then
          let s1 := s.onRun fun r => { r with draw := none, left := r.left - 1, out := none }
          let s2 := (s1.writeTransferEntry (r.drawEntry o sample)).closeEvent false
          let s3 := match s2.batchAt r.source with
            | some (n, _) => s2.onSlot n fun b => { b with draws := satAdd 255 b.draws 1 }
            | none => s2
          ((s3.post .draw .transfer r.source.val o.index sample).drawTest).doneTest
        else s
      | none => s
    | none => s
  | none => s

/-- A usable DRAWER_STATE delivery (R127). A value below -2 has no meaning there: it has no effect (DESIGN CHOICE, assumption
69). -/
def State.drawerReports (s : State) (v : Int) : State :=
  match s.transfer.running.bind (·.out) with
  | some o =>
    if v = -2 then s.abortRun .drawerFault
    else if 0 ≤ v ∧ o.sampleAt ≠ some v ∧ o.report.isNone then
      (s.onRun fun r => { r with out := some { o with report := some v } }).drawComplete
    else s
  | none => s

/-- The filter reports the DRAW of an offer (R127). A report whose offer is not the outstanding draw's, as of an earlier
transfer, changes nothing (DESIGN CHOICE, assumption 96). -/
def State.drawReported (s : State) (rep : Report) (serial : Nat) : State :=
  match s.transfer.running.bind (·.out) with
  | some o =>
    if o.serial = serial then
      match rep with
      | .accepted _ => (s.onRun fun r => { r with out := some { o with confirmed := true } }).drawComplete
      | .failed => s.abortRun .commandFailed
      | .withdrawn | .delivered => s
    else s
  | none => s

/-- The filter reports a ROUTE (R124, R162). A report whose offer is not one of the running transfer's, as of an earlier
transfer that was aborted, changes nothing and does not abort the new one (DESIGN CHOICE, assumption 96). -/
def State.routeReported (s : State) (rep : Report) (serial : Nat) : State :=
  match s.transfer.running with
  | some r =>
    if r.state = .routing ∧ r.route.any (fun l => l.serial = serial) then
      match rep with
      | .accepted _ =>
        let legs := r.route.map fun l => if l.serial = serial then { l with confirmed := true } else l
        let s1 := s.onRun fun r => { r with route := legs }
        if legs.all (·.confirmed) then s1.enterRunning else s1
      | .failed => s.abortRun .commandFailed
      | .withdrawn | .delivered => s
    else s
  | none => s

/-! ## The transferred mass (R123) -/

/-- T at its bound, in grams. -/
abbrev massBound : Nat := 2000000000

/-- A usable WEIGHER_TOTAL delivery: T never falls; a rise in RUNNING reloads the no-flow timer and makes the draw test
(R123, R125, R126). With the run idle and requests waiting, the arbiter scans (R121). -/
def State.weigherTotal (s : State) (v : Int) : State :=
  match s.transfer.running with
  | some r =>
    let t := min ((v - r.base) * 1000) massBound
    if (r.mass : Int) < t then
      let s1 := s.onRun fun r => { r with mass := t.toNat }
      if r.state = .running then (s1.onRun fun r => { r with noFlow := s.runTimer (·.noFlow) }).drawTest else s1
    else s
  | none => if s.transfer.requests.isEmpty then s else s.emit .scan

/-! ## The start (R122) -/

/-- The source's and the destination's sequencers are told that the transfer has started. -/
def State.tellStart (s : State) (v : Fin 12) (d : Fin 13) : State :=
  let s1 := match vesselIs v with
    | .steep i => s.steepTo i .casting
    | .comp c => s.compTo c .unloading
    | .kiln k => (s.kilnTo k .stripping).evalGate k
  match (vesselOf d.val).map vesselIs with
  | some (.comp c) => s1.compTo c .receiving
  | some (.kiln k) => (s1.kilnTo k .receiving).evalGate k
  | some (.steep _) | none => s1

/-- An eligible request is started (R122). -/
def State.startTransfer (s : State) (q : TransferReq) (d : Fin 13) : State :=
  match s.batchAt q.source, s.weigher with
  | some (slot, b), some base =>
    let n := s.excise.drawCount q.kind
    let e := match b.acct with
      | some a => a.dry + a.water
      | none => 0
    let s1 := s.reserveEntries n
    let run : Running :=
      { kind := q.kind, source := q.source, dest := d, fromPlant := q.fromPlant, batchId := b.id, state := .routing
        start := s.timeNow, route := [], expected := e, base, mass := 0, points := [], next := 0, out := none
        left := n + 2, routeTimer := none, noFlow := none, runOn := none, draw := none, ranOn := false, cause := none
        stops := [] }
    let s2 := (s1.onTransfer fun t => { t with
      requests := t.requests.filter fun r => r.source ≠ q.source
      running := some run
      reserved := vesselOf d.val }).postTransfer q.source .routing d.val
    let s3 := (s2.tellStart q.source d).onSlot slot fun b => { b with state := q.kind.moving }
    let plan := planDraws e n s3.excise.now.gen
    let start := s3.excise.now.next
    let s4 := (s3.writeTransferEntry (run.entry kSTART 0 e)).onExcise fun u =>
      { u with now := { u.now with openNo := start, gen := plan.2 } }
    let s5 := (s4.closeEvent false).onRun fun r => { r with points := plan.1, left := n + 1 }
    let p := s5.offerRoutes ((s.routeOf q.source d).getD [])
    p.1.onRun fun r => { r with route := p.2, routeTimer := s.runTimer (·.routeTime) }
  | _, _ => s

/-- A scan of the arbiter: with the run idle, the oldest eligible request starts (R121). -/
def State.scan (s : State) : State :=
  if s.transfer.running.isSome then s
  else match s.transfer.requests.findSome? fun r => (s.eligible r).map fun d => (r, d) with
    | some (r, d) => s.startTransfer r d
    | none => s

/-! ## Expiries (R124, R125, R127, R128) -/

def State.routeExpires (s : State) : State :=
  match s.transfer.running with
  | some r => if r.routeTimer = some 0 then s.abortRun .routeTimeout else s
  | none => s

def State.noFlowExpires (s : State) : State :=
  match s.transfer.running with
  | some r => if r.noFlow = some 0 then s.runTo .stalled fun r => { r with noFlow := none } else s
  | none => s

def State.runOnExpires (s : State) : State :=
  match s.transfer.running with
  | some r =>
    if r.runOn = some 0 then (s.onRun fun r => { r with runOn := none, ranOn := true }).doneTest else s
  | none => s

def State.drawExpires (s : State) : State :=
  match s.transfer.running with
  | some r => if r.draw = some 0 then s.abortRun .drawTimeout else s
  | none => s

/-! ## Resumption (R130) -/

/-- A STALLED transfer enters RUNNING again. -/
def State.resumeRun (s : State) : State :=
  let s1 := (s.runTo .running id).onRun fun r => { r with noFlow := s.runTimer (·.noFlow) }
  match s.transfer.running with
  | some r =>
    match s1.usableRole (.vessel r.source) (emptyRole r.source) with
    | some v => if s1.saysEmpty r.source v then s1.enterClearing else s1.drawTest
    | none => s1.drawTest
  | none => s1

end Sys2Proof.Machine
end

