-- ==== Sys2Proof/Machine/Modes.lean ====
section
/-! DEFINITION. Machine/Modes.lean: a change of a vessel's mode by request (R45, R57, R58, R68, R113, R114), and a vessel that
is abandoned (R18). -/

namespace Sys2Proof.Machine

/-- The vessel's sequencer takes the entry into OFF, while the mode is still the old one. -/
def State.leaveForOff (s : State) (v : Fin 12) : State :=
  match vesselIs v with
  | .steep i => s.steepOff i
  | .comp c => s.compOff c
  | .kiln k => s.kilnOff k

/-- The vessel's sequencer takes the entry into AUTO. -/
def State.enterAuto (s : State) (v : Fin 12) : State :=
  match vesselIs v with
  | .steep i => s.steepAuto i
  | .comp c => s.compAuto c
  | .kiln k => s.kilnAuto k

/-- The mode is set with its MODE notice (R45). -/
def State.modeTo (s : State) (v : Fin 12) (m : Mode) : State :=
  (s.onVessel v fun r => { r with mode := m }).postVessel .mode v m.code (s.vessel v).mode.code

/-- A steep that leaves OFF with its CO2 HIGH offers the override's commands (R55). -/
def State.steepWakes (s : State) (v : Fin 12) : State :=
  match vesselIs v with
  | .steep i => s.co2Refresh i
  | .comp _ | .kiln _ => s

/-- The watch timer of a vessel that leaves OFF is loaded if it has a watch MP (R41). -/
def State.wakeWatch (s : State) (v : Fin 12) : State := if watchMpIn s.tables.mp v then s.loadWatch v else s

/-- The vessel enters OFF. The other kiln re-evaluates once a kiln that gave up its grant is OFF (R113). -/
def State.modeOff (s : State) (v : Fin 12) : State :=
  let s1 := ((s.leaveForOff v).modeTo v .off).stopWatch v
  match vesselIs v with
  | .kiln k => if 0 < (s.kiln k).grant then s1.regrant (other k) else s1
  | .steep _ | .comp _ => s1

/-- The vessel enters MANUAL, AUTO or HOLD from another mode. -/
def State.modeOn (s : State) (v : Fin 12) (m : Mode) : State :=
  let old := (s.vessel v).mode
  let s1 := s.modeTo v m
  let s2 := if old = .off then (s1.wakeWatch v).steepWakes v else s1
  let s3 := if old = .auto then s2.leaveAuto v else if m = .auto then s2.enterAuto v else s2
  if m.active ∧ (s3.phaseEmpty v ∨ s3.awaitsTransfer v) then s3.emit .scan else s3

/-- An accepted VESSEL SET MODE is applied to one vessel (R45). For a compartment it sets the turner-fault count to 0
(R82). -/
def State.applyMode (s : State) (v : Fin 12) (m : Mode) : State :=
  let s1 := s.onVessel v fun r => { r with fault := none }
  let s2 := match vesselIs v with
    | .comp c => s1.onComp c fun x => { x with faults := 0 }
    | .steep _ | .kiln _ => s1
  if (s.vessel v).mode = m then s2 else if m = .off then s2.modeOff v else s2.modeOn v m

/-- The vessel of an abandoned batch (R18): OFF, EMPTY, its request withdrawn, its integrator cleared. -/
def State.abandonVessel (s : State) (v : Fin 12) : State :=
  let s1 := (s.applyMode v .off).vesselEmpties v
  (s1.onTransfer fun t => { t with requests := t.requests.filter fun r => r.source ≠ v }).clearInteg v

end Sys2Proof.Machine
end

