-- ==== Sys2Proof/Machine/Events.lean ====
section
/-! DEFINITION. Machine/Events.lean: the events that one block hands another, each taken when the block at work has done
(R121, R136, R151, Table 8-3). -/

namespace Sys2Proof.Machine

/-- A report of the command filter reaches the block and subject that offered the command (Table 8-3). -/
def State.takeReport (s : State) (r : Report) (p : Purpose) (serial : Nat) : State :=
  match p with
  | .vessel v => if r = .failed then s.vesselFault v .commandFailed else s
  | .drive t => match r with
    | .failed => s.driveFailed t
    | .accepted _ => s.driveAccepted t serial
    | .withdrawn | .delivered => s
  | .route => s.routeReported r serial
  | .draw => s.drawReported r serial
  | .stopDone v => if r = .failed then s.postTransfer v .done (-1) else s
  | .stopAbort => s.stopReported r serial

/-- An event is taken. -/
def State.takeEvent (s : State) (e : Event) : State :=
  match e with
  | .report r p serial _ => s.takeReport r p serial
  | .scan => s.scan
  | .storeFault => s.abortRun .storeFault

/-- The waiting events are taken in the order they were set out, at most n of them. -/
def State.takeEvents (s : State) : Nat → State
  | 0 => s
  | n + 1 =>
    match s.work with
    | [] => s
    | e :: es => ({ s with work := es }.takeEvent e).takeEvents n

/-- The most events that one command or one sample entry takes; what is left, if ever, is taken by the next command. -/
abbrev eventBound : Nat := 65536

/-- All events are taken. -/
def State.settle (s : State) : State := s.takeEvents eventBound

end Sys2Proof.Machine
end

