-- ==== Sys2Proof/Machine/Intake.lean ====
section
/-! DEFINITION. Machine/Intake.lean: the sample intake (R26 to R30): mapping, status, comparator, delivery and watch of each
sample entry, the staleness check, and the forwarding of a SAMPLE telegram. -/

namespace Sys2Proof.Machine

/-! ## Entries (R167) -/

/-- A sample entry: channel, quality code 0..3 and the 22 value bits. -/
structure SampleEntry where
  channel : Nat
  quality : Nat
  bits : Nat
  deriving DecidableEq, Repr, Inhabited

/-- The entries of a SAMPLE payload, 4 bytes each (Table 9-3). -/
def sampleEntries : List Byte → List SampleEntry
  | c :: q :: h :: l :: rest =>
    { channel := c.toNat, quality := q.toNat / 64, bits := (q.toNat % 64) * 65536 + h.toNat * 256 + l.toNat } ::
      sampleEntries rest
  | _ => []

/-- A SAMPLE payload of legal length (R167). -/
def samplePayloadOk (p : List Byte) : Bool := p.length % 4 = 0 && 4 ≤ p.length && p.length ≤ 48

/-- The value of an entry for a kind: signed over 22 bits, or for ENCODER the marker and the delta signed over 21 bits
(R27, R167). -/
def entryValue (k : MpKind) (bits : Nat) : MpValue :=
  if k = .encoder then { val := signOf 21 bits, marker := decide (2097152 ≤ bits % 4194304) }
  else { val := signOf 22 bits }

/-- The MP with a station and channel (R26). -/
def State.mapEntry (s : State) (station channel : Nat) : Option (Nat × MpEntry) :=
  s.tables.mp.find? fun e => e.2.station = station ∧ e.2.channel = channel

/-! ## Status (R27) -/

/-- The status and value that an entry sets, and whether it is a usable sample (R27). -/
def MpLive.take (l : MpLive) (e : MpEntry) (x : SampleEntry) (now : Nat) : MpLive :=
  if x.quality ≠ 0 ∧ x.quality ≠ 1 then { l with status := .failed }
  else
    let v := entryValue e.kind x.bits
    if v.val < e.rmin then { l with status := .clamped, last := some { v with val := e.rmin } }
    else if e.rmax < v.val then { l with status := .clamped, last := some { v with val := e.rmax } }
    else { l with
      status := if x.quality = 0 then .good else .suspect
      last := some v
      lastGood := some now }

/-! ## Delivery (R29) -/

/-- The source's empty MP of the running transfer has been delivered (R125). -/
def State.runEmptyTest (s : State) (v : Fin 12) (r : Role) (x : Int) : State :=
  match s.transfer.running with
  | some t => if t.source = v ∧ r = emptyRole v then s.emptyTest x else s
  | none => s

/-- An AIR_OFF_HUMIDITY delivery to the batch unit; where a step was computed, M is handed to a kiln's sequencer (R13,
R17). -/
def State.humidity (s : State) (v : Fin 12) (x : Int) : State :=
  let s1 := s.dryAttempt v x
  match vesselIs v with
  | .kiln k => if s.dryComputes v then s1.kilnMoisture k else s1
  | .steep _ | .comp _ => s1

/-- A delivery to the sequencer of a vessel. -/
def State.deliverVessel (s : State) (v : Fin 12) (r : Role) (x : Int) : State :=
  match vesselIs v with
  | .steep i =>
    if r = .level then s.levelCheck i x else if r = .grainMass then s.steepMass i x else s
  | .comp c => if r.bed then s.spreadTest c else if r = .airOffHumidity then s.humidity v x else s
  | .kiln k =>
    match r with
    | .airOffTemp => s.endTestOf k .airOff
    | .burnerState => s.onKiln k fun y => { y with burner := some x }
    | .peatState => s.kilnPeat k x
    | .airOffHumidity => s.humidity v x
    | _ => s

/-- A usable sample is delivered to the owner, from the lowest-numbered MP of the role alone (R29). -/
def State.deliver (s : State) (n : Nat) (e : MpEntry) (v : MpValue) : State :=
  if s.mpOf e.owner e.role ≠ some n then s
  else match e.owner with
    | .vessel u => (s.deliverVessel u e.role v.val).runEmptyTest u e.role v.val
    | .turner t =>
      match e.role with
      | .turnerEncoder => s.turnerEncoder t v.val v.marker
      | .turnerState => s.turnerReport t v.val
      | _ => s
    | .run =>
      match e.role with
      | .weigherTotal => s.weigherTotal v.val
      | .drawerState => s.drawerReports v.val
      | _ => s
    | .none => s

/-- The watch of the owner vessel (R39). -/
def State.watchDelivery (s : State) (n : Nat) (e : MpEntry) : State :=
  match e.watch, e.owner with
  | true, .vessel v => s.watchSample v n
  | _, _ => s

/-- A mapped entry is taken whole (R27, R29, R39). -/
def State.takeMapped (s : State) (n : Nat) (e : MpEntry) (x : SampleEntry) : State :=
  let s1 := s.onLive n fun l => l.take e x s.timeNow
  match (s1.live n).status.usable, (s1.live n).last with
  | true, some v => ((s1.compare n e v.val).deliver n e v).watchDelivery n e
  | _, _ => s1

/-- A sample entry is taken from mapping to delivery, with all that it sets off (R26), settled before the next entry (DESIGN
CHOICE, assumption 22). -/
def State.takeEntry (s : State) (station : Nat) (x : SampleEntry) : State :=
  match s.mapEntry station x.channel with
  | some (n, e) => (s.takeMapped n e x).settle
  | none => s.onIntake fun i => { i with unmapped := satAdd max32 i.unmapped 1 }

/-- A SAMPLE is marked for forwarding (R30). -/
def State.forwardWanted (s : State) (station : Nat) (xs : List SampleEntry) : Bool :=
  xs.any fun x => match s.mapEntry station x.channel with
    | some (_, e) => e.forward
    | none => (s.tables.station.get station).any (·.fwdUnmapped)

/-- A SAMPLE telegram's entries, in order, and its forwarding (R26, R30). -/
def State.takeSample (s : State) (src seq : Nat) (payload : List Byte) : State :=
  let xs := sampleEntries payload
  let s1 := xs.foldl (fun s x => s.takeEntry src x) s
  if s1.forwardWanted src xs then s1.forward { src, seq, payload } else s1

/-! ## Staleness (R28) -/

/-- An MP in GOOD or SUSPECT whose last good time is older than its stale limit becomes STALE. The difference is taken modulo
2^32, as R14 takes its own (R28 gives no modulus; DESIGN CHOICE, assumption 95). -/
def MpLive.age (l : MpLive) (e : MpEntry) (now : Nat) : MpLive :=
  match l.lastGood with
  | some t => if l.status.usable ∧ e.stale < elapsed now t then { l with status := .stale } else l
  | none => l

/-- The staleness check of a field cycle start. -/
def State.staleCheck (s : State) : State :=
  s.tables.mp.foldl (fun s e => s.onLive e.1 fun l => l.age e.2 s.timeNow) s

end Sys2Proof.Machine
end

