-- ==== Sys2Proof/Machine/Clock.lean ====
section
/-! DEFINITION. Machine/Clock.lean: the passing of a tenth of a second: process time, plant time (R185), and every timer
that runs (R38, R49, R64, R94, R97, R109, R150). A timer comes to rest at 0, its expiry being due. -/

namespace Sys2Proof.Machine

/-- Plant time a tenth later (R185). -/
def PlantTime.tick (p : PlantTime) : PlantTime :=
  if p.tenth < 9 then { p with tenth := p.tenth + 1 }
  else if p.second < 86399 then { p with tenth := 0, second := p.second + 1 }
  else { day := (p.day + 1) % 65536, second := 0, tenth := 0 }

def Clock.tick (c : Clock) : Clock :=
  { process := (c.process + 1) % timeModulus, plant := c.plant.map PlantTime.tick }

/-- A steep's timers a tenth later (R49, R59). -/
def State.tickSteep (s : State) (i : Fin 4) : State :=
  s.onSteep i fun x => { x with
    phaseTimer := x.phaseTimer.tickIf (s.phaseTimerRuns i)
    wait := x.wait.map fun w => if s.waitRuns i w.1 then (w.1, w.2 - 1) else w }

/-- A compartment's timers a tenth later (R64). -/
def State.tickComp (s : State) (c : Fin 6) : State :=
  s.onComp c fun x => { x with
    stageTimer := x.stageTimer.tickIf (s.compTimersRun c)
    interval := x.interval.tickIf (s.compTimersRun c) }

/-- A turner's timers a tenth later. -/
def State.tickTurner (s : State) (t : Fin 2) : State :=
  s.onTurner t fun x => { x with moveTimer := x.moveTimer.tick, passTimer := x.passTimer.tick }

/-- The stage firing time a tenth later; it stands at the stage's maximum duration (R94, R96). -/
def State.firingNext (s : State) (k : Fin 2) : Nat :=
  let x := s.kiln k
  match x.fields with
  | some f => if s.firingRuns k ∧ x.firing < f.maxDur * 600 then x.firing + 1 else x.firing
  | none => x.firing

/-- A kiln's times a tenth later: the step timer stands while the kiln is HOLDING or OFF (R109). -/
def State.tickKiln (s : State) (k : Fin 2) : State :=
  s.onKiln k fun x => { x with
    firing := s.firingNext k
    cool := x.cool.tickIf (s.coolRuns k)
    step := if s.kilnMode k ≠ .off ∧ x.thermal ≠ .holding then x.step.map fun d => (d.1, d.2 - 1) else x.step }

/-- The transfer's timers a tenth later. -/
def Running.tick (r : Running) : Running :=
  { r with routeTimer := r.routeTimer.tick, noFlow := r.noFlow.tick, runOn := r.runOn.tick, draw := r.draw.tick }

/-- The excise unit's timers a tenth later; the idle timer stands while a request of the excise terminal is in progress
(R150). -/
def State.tickExcise (s : State) : State :=
  s.onExcise fun e => { e with
    idle := e.idle.tickIf s.mgmt.excise.isNone
    lockout := e.lockout.tick }

/-- A tenth of a second passes. -/
def State.tick (s : State) : State :=
  let s1 := (s.onClock Clock.tick).onTrunk fun t => { t with silence := t.silence.tick }
  let s2 := allVessels.foldl (fun s v => s.onVessel v fun r => { r with watch := r.watch.tick }) s1
  let s3 := allSteeps.foldl (fun s i => s.tickSteep i) s2
  let s4 := allComps.foldl (fun s c => s.tickComp c) s3
  let s5 := allTurners.foldl (fun s t => s.tickTurner t) s4
  let s6 := allKilns.foldl (fun s k => s.tickKiln k) s5
  (s6.onRun Running.tick).tickExcise

end Sys2Proof.Machine
end

