-- ==== Sys2Proof/Machine/Field.lean ====
section
/-! DEFINITION. Machine/Field.lean: the field line master (R169, R174 to R180): cycles, the walk, polls and station health,
the command window, and the telegrams that arrive on the field line. -/

namespace Sys2Proof.Machine

/-- A telegram is put on the field line with the field transmit sequence (R169), and with the own station address that is
committed at this moment as source (DESIGN CHOICE, assumption 97). -/
def State.putField (s : State) (station kind : Nat) (payload : List Byte) : State :=
  s.onField fun f => { f with
    sent := f.sent ++ [telegram station s.ownAddr kind f.seq payload]
    seq := (f.seq + 1) % 256 }

/-- A COMMAND's payload (Table 9-3). -/
def SendCmd.payload (c : SendCmd) : List Byte := beBytes 1 c.code ++ beInt 4 c.arg ++ beBytes 1 c.tag

/-! ## Station health (R179) -/

/-- A STATION notice: source class STATION, index the address; UP is 1 and DOWN 0. -/
def State.postStation (s : State) (st : Nat) (up : Bool) (value : Nat) : State :=
  s.post .station .station st (if up then 1 else 0) value

/-- A good answer. -/
def State.answerGood (s : State) (st : Nat) : State :=
  match s.field.health.get st with
  | some h =>
    let s1 := s.onField fun f => { f with
      health := f.health.put st { up := true, misses := 0, lastGood := some s.timeNow } }
    if h.up then s1 else s1.postStation st true 0
  | none => s

/-- A miss, under the miss limit of the descriptor that polled. -/
def State.answerMissed (s : State) (st limit : Nat) : State :=
  match s.field.health.get st with
  | some h =>
    let n := satAdd 15 h.misses 1
    let down := h.up && decide (limit ≤ n)
    let s1 := s.onField fun f => { f with health := f.health.put st { h with misses := n, up := h.up && !down } }
    if down then s1.postStation st false n else s1
  | none => s

/-! ## The command window (R180) -/

/-- The response window of a station; 20 ms for one that has left the station table (R180). -/
def State.windowOf (s : State) (st : Nat) : Nat := ((s.tables.station.get st).map (·.window)).getD 20

/-- The window ends: the entries still in flight are settled (R161), and the cycle ends (R176, R180). -/
def State.endWindow (s : State) : State :=
  s.settleFlights.onField fun f => { f with busy := false, phase := .idle }

/-- The commands of the window are sent up to the first that waits for a CONFIRM. -/
def State.sendCommands (s : State) : List SendCmd → State
  | [] => s.endWindow
  | c :: rest =>
    let s1 := s.putField c.station tCOMMAND c.payload
    if c.station = 0 then s1.sendCommands rest
    else s1.onField fun f => { f with phase := .window c.station (s.windowOf c.station) rest }

/-- The command window opens. -/
def State.openWindow (s : State) : State :=
  let p := s.windowCommands
  p.1.sendCommands p.2

/-! ## The walk (R177, R178) -/

/-- The descriptor of an index; one that is not listed is as it is after a reset (R175). -/
def Schedule.desc (t : Schedule) (d : Nat) : Descriptor := (t.descs.get d).getD {}

/-- An overrun walk: the count, and at the first since the last commit the notice (R177). -/
def State.overrun (s : State) : State :=
  let s1 := s.onField fun f => { f with overruns := satAdd max16 f.overruns 1, overrunSeen := true }
  if s.field.overrunSeen then s1 else s1.post .walkOverrun .field (s.field.cycle % 16) 0 32

/-- The walk goes on from a link with the visits made so far, up to the next poll or to the command window. n is at least
the number of visits still allowed. A 32nd visit that overruns the walk and polls its station counts the overrun and posts
its notice before the POLL is sent (DESIGN CHOICE, assumption 106). -/
def State.walk (s : State) : Nat → Option Nat → Nat → State
  | 0, _, _ => s.openWindow
  | _ + 1, none, _ => s.openWindow
  | n + 1, some d, visits =>
    let x := s.field.sched.desc d
    let last := decide (32 ≤ visits + 1)
    let s1 := if last ∧ x.link.isSome then s.overrun else s
    let next := if last then none else x.link
    match x.active, s.tables.station.get x.station with
    | true, some st =>
      if s.field.polled.contains x.station then s1.walk n next (visits + 1)
      else
        (s1.putField x.station tPOLL []).onField fun f => { f with
          polled := f.polled ++ [x.station]
          phase := .polling x.station st.window x.missLimit next (visits + 1) }
    | _, _ => s1.walk n next (visits + 1)

/-- The walk goes on after a poll. -/
def State.walkOn (s : State) (next : Option Nat) (visits : Nat) : State := s.walk 33 next visits

/-! ## Cycles (R176) -/

/-- A cycle starts: adoption, number, polled set, staleness check (R28), and the walk. -/
def State.startCycle (s : State) : State :=
  let s1 := s.onField fun f => { f with
    sched := if f.adopt then s.tables.schedule else f.sched
    adopt := false
    cycle := (f.cycle + 1) % timeModulus
    busy := true
    polled := []
    sent := [] }
  s1.staleCheck.walkOn (s1.field.sched.heads.get (s1.field.cycle % 16)) 0

/-- A mark of the time base: it starts a cycle, is held, or is lost. -/
def State.mark (s : State) : State :=
  if s.field.busy then
    if s.field.heldMark then s.onField fun f => { f with lost := satAdd max16 f.lost 1 }
    else s.onField fun f => { f with heldMark := true }
  else if s.field.heldMark then s.onField fun f => { f with lost := satAdd max16 f.lost 1 }
  else s.startCycle

/-- The start of a cycle from a held mark, once the previous cycle's window has ended. -/
def State.heldCycle (s : State) : State :=
  if s.field.heldMark ∧ !s.field.busy then
    (s.onField fun f => { f with heldMark := false, late := satAdd max16 f.late 1 }).startCycle
  else s

/-! ## Telegrams on the field line (R169, R178, R180) -/

/-- A telegram discarded for its length, destination, kind or layout. -/
def State.fieldBad (s : State) : State := s.onField fun f => { f with lengthErrors := satAdd max16 f.lengthErrors 1 }

/-- A SAMPLE that passes the tests: the answer to the present poll, or unexpected (R178). -/
def State.fieldSample (s : State) (src seq : Nat) (payload : List Byte) : State :=
  match s.field.phase with
  | .polling st _ _ next visits =>
    if st = src then
      (((s.onField fun f => { f with phase := .idle }).answerGood src).takeSample src seq payload).walkOn next visits
    else s.onField fun f => { f with unexpected := satAdd max16 f.unexpected 1 }
  | .idle | .window _ _ _ => s.onField fun f => { f with unexpected := satAdd max16 f.unexpected 1 }

/-- A SAMPLE addressed to the part: a payload of illegal length is discarded (R167, R169). -/
def State.sampleArrives (s : State) (src seq : Nat) (payload : List Byte) : State :=
  if samplePayloadOk payload then s.fieldSample src seq payload else s.fieldBad

/-- A CONFIRM that passes the tests: it goes to the filter, and ends the wait for its station's CONFIRM (R161, R178,
R180). What the filter reports is settled before the window goes on (DESIGN CHOICE, assumption 22). -/
def State.confirmArrives (s : State) (src tag : Nat) (accepted : Bool) : State :=
  let s1 := s.takeConfirm src tag accepted
  match s.field.phase with
  | .window st _ rest => if st = src then s1.settle.sendCommands rest else s1
  | .idle | .polling _ _ _ _ _ => s1

/-- A telegram arrives on the field line, byte by byte as received (R169). -/
def State.fieldArrives (s : State) (bytes : List Byte) : State :=
  if checkPasses bytes then
    match frameOf bytes with
    | some f =>
      if f.dst ≠ s.ownAddr then s.fieldBad
      else if f.kind = tSAMPLE then s.sampleArrives f.src f.seq f.payload
      else if f.kind = tCONFIRM then
        match f.payload with
        | [tag, r] =>
          if r = 1 then s.confirmArrives f.src tag.toNat true
          else if r = 2 then s.confirmArrives f.src tag.toNat false
          else s.fieldBad
        | _ => s.fieldBad
      else s.fieldBad
    | none => s.fieldBad
  else s.onField fun f => { f with checkErrors := satAdd max16 f.checkErrors 1 }

/-- The response window of the present poll runs out: a miss, and the walk goes on (R178). -/
def State.pollExpires (s : State) : State :=
  match s.field.phase with
  | .polling st _ limit next visits =>
    ((s.onField fun f => { f with phase := .idle }).answerMissed st limit).walkOn next visits
  | .idle | .window _ _ _ => s

/-- The wait for the present command's CONFIRM runs out: the next command is sent (R180). -/
def State.commandExpires (s : State) : State :=
  match s.field.phase with
  | .window _ _ rest => s.sendCommands rest
  | .idle | .polling _ _ _ _ _ => s

end Sys2Proof.Machine
end

