-- ==== Sys2Proof/Machine/Operands.lean ====
section
/-! DEFINITION. Machine/Operands.lean: the forms of a request's arguments and of a reply's result (R182): numbers in the
fewest whole bytes, names by their place, flags, fields that may be absent, and the cut into parts. -/

namespace Sys2Proof.Machine

/-! ## Reading arguments -/

/-- A reader of argument bytes: what it reads, and the bytes after it. -/
abbrev Reader (α : Type) := List Byte → Option (α × List Byte)

/-- An unsigned number of k bytes in a range. -/
def readNat (k lo hi : Nat) : Reader Nat := fun bs =>
  if bs.length < k then none
  else
    let n := ofBytes (bs.take k)
    if lo ≤ n ∧ n ≤ hi then some (n, bs.drop k) else none

/-- A signed number of k bytes in a range. -/
def readInt (k : Nat) (lo hi : Int) : Reader Int := fun bs =>
  if bs.length < k then none
  else
    let n := ofBytesInt (bs.take k)
    if lo ≤ n ∧ n ≤ hi then some (n, bs.drop k) else none

/-- A flag: 1 set, 0 clear (DESIGN CHOICE, assumption 11). -/
def readFlag : Reader Bool := fun bs => match bs with
  | b :: r => if b = 1 then some (true, r) else if b = 0 then some (false, r) else none
  | [] => none

/-- A name by its place in a list, counted from 0. -/
def readName {α : Type} (l : List α) : Reader α := fun bs => match bs with
  | b :: r => (nameAt l b.toNat).map fun a => (a, r)
  | [] => none

/-- A field of k bytes that may be absent: its flag byte is 1 where it is absent, and its bytes are then passed over, whatever
they are; another flag byte than 1 and 0 is out of range (DESIGN CHOICE, assumption 47). -/
def readOpt {α : Type} (k : Nat) (p : Reader α) : Reader (Option α) := fun bs => match bs with
  | b :: r =>
    if b = 1 then (if r.length < k then none else some (none, r.drop k))
    else if b = 0 then (p r).map fun x => (some x.1, x.2)
    else none
  | [] => none

/-- A reader that must take all the bytes. -/
def readAll {α : Type} (p : Reader α) (bs : List Byte) : Option α :=
  match p bs with
  | some (a, []) => some a
  | _ => none

/-! ## Writing results -/

/-- An unsigned number in k bytes. -/
def putNat (k n : Nat) : ResultBytes := (beBytes k n).map some

/-- A signed number in k bytes. -/
def putInt (k : Nat) (i : Int) : ResultBytes := (beInt k i).map some

def putFlag (b : Bool) : ResultBytes := [some (if b then 1 else 0)]

/-- A field of k bytes that may be absent: the manual gives no value for the bytes of an absent one (assumption 4). -/
def putOpt (k : Nat) (o : Option ResultBytes) : ResultBytes :=
  match o with
  | some r => some 0 :: r
  | none => some 1 :: List.replicate k none

def putOptNat (k : Nat) (o : Option Nat) : ResultBytes := putOpt k (o.map (putNat k))
def putOptInt (k : Nat) (o : Option Int) : ResultBytes := putOpt k (o.map (putInt k))

/-- A list of varying length, preceded by its number of items in one byte: R182 gives no layout for one (DESIGN CHOICE,
assumption 68). -/
def putList {α : Type} (l : List α) (f : α → ResultBytes) : ResultBytes := putNat 1 l.length ++ (l.map f).flatten

/-! ## Parts (R182) -/

/-- The most bytes of a reply's result. -/
abbrev partBytes : Nat := 44

/-- How many parts a result has. -/
def partsOf (r : ResultBytes) : Nat := (r.length + (partBytes - 1)) / partBytes

/-- What a request is answered with: status, detail byte and result. -/
structure Answered where
  status : Status
  detail : Nat := 0
  result : ResultBytes := []
  deriving DecidableEq, Repr, Inhabited

/-- An answer with a status alone. -/
def Answered.of (st : Status) : Answered := { status := st }

/-- The part of a result that a request names: the detail byte holds the number of parts, and a part at or beyond it is
refused. -/
def partAnswer (r : ResultBytes) (part : Nat) : Answered :=
  if part < partsOf r then { status := .ok, detail := partsOf r, result := (r.drop (partBytes * part)).take partBytes }
  else .of .badArgument

end Sys2Proof.Machine
end

