-- ==== Sys2Proof/Machine/Flags.lean ====
section
/-! DEFINITION. Machine/Flags.lean: the flags and counts that the part derives from its state for READ STATUS, READ COUNTERS
and the checks of requests (Tables 11-6 and 11-7, R102, R164). -/

namespace Sys2Proof.Machine

/-- How many vessels are in HOLD with a fault code (Table 11-6). -/
def State.faultedVessels (s : State) : Nat :=
  (allVessels.filter fun v => (s.vessel v).mode = .hold ∧ (s.vessel v).fault.isSome = true).length

/-- The sum of the two grants (R101). -/
def State.grantSum (s : State) : Nat := (s.kiln 0).grant + (s.kiln 1).grant

/-- The state of the running transfer, or none. -/
def State.runState (s : State) : Option TransferState := s.transfer.running.map (·.state)

/-- The batch id that a vessel holds, or none. -/
def State.batchIdAt (s : State) (v : Fin 12) : Option Nat := (s.batchAt v).map fun e => e.2.id

/-- A vessel may not go to OFF: it holds a batch or is reserved as a transfer destination (R44). -/
def State.boundVessel (s : State) (v : Fin 12) : Bool :=
  (s.batchAt v).isSome || decide (s.transfer.reserved = some v)

/-- The committed vessel table has an entry for the vessel (R44). -/
def State.hasEntry (s : State) (v : Fin 12) : Bool := (s.tables.vessel.watchOf v).isSome

/-- A batch that is started, in a program of its kind: the batches that hold a steep program or a kiln program in use
(R48, R90). -/
def State.programInUse (s : State) (states : BatchState → Bool) (prog : Batch → Nat) (p : Nat) : Bool :=
  s.batch.slots.any fun e => states e.2.state && decide (prog e.2 = p)

end Sys2Proof.Machine
end

