-- ==== Sys2Proof/Machine/Tables.lean ====
section
/-! DEFINITION. Machine/Tables.lean: the entries of the ten tables and of the excise tables as requests carry them (R182,
R184, Tables 2-1 to 8-2, 7-5), and the TABLE requests' work on the staged copies. -/

namespace Sys2Proof.Machine

/-! ## Table ids (Table 11-4) -/

abbrev tCONFIG : Nat := 1
abbrev tSTATION : Nat := 2
abbrev tSCHEDULE : Nat := 3
abbrev tMP : Nat := 4
abbrev tINTERLOCK : Nat := 5
abbrev tVESSEL : Nat := 6
abbrev tSTEEP : Nat := 7
abbrev tGERM : Nat := 8
abbrev tKILN : Nat := 9
abbrev tTRANSFER : Nat := 10

/-- Tables 11..14 are the excise tables. -/
def exciseTable (id : Nat) : Bool := 11 ≤ id && id ≤ 14

/-- How many entries a table has; none for an id that names no table (Tables 7-5 and 11-4). -/
def entriesOf (id : Nat) : Option Nat :=
  match id with
  | 1 => some 4
  | 2 => some 63
  | 3 => some 112
  | 4 => some 128
  | 5 => some 48
  | 6 => some 14
  | 7 => some 104
  | 8 => some 72
  | 9 => some 36
  | 10 => some 39
  | 11 => some 4
  | 12 => some 1
  | 13 => some 1
  | 14 => some 1
  | _ => none

/-! ## Reading the fields of an entry -/

/-- A field station address 1..63. -/
def readStation : Reader Nat := readNat 1 1 63

/-- A name among 2, 12 or 13, by its number. -/
def readFin (lo n : Nat) (h : 0 < n) : Reader (Fin n) := fun bs =>
  (readNat 1 lo (lo + n - 1) bs).map fun x => (⟨(x.1 - lo) % n, Nat.mod_lt _ h⟩, x.2)

def readTurner : Reader (Fin 2) := readFin 0 2 (by decide)
def readVessel : Reader (Fin 12) := readFin 0 12 (by decide)

/-- An owner: VESSEL and a vessel number, TURNER and a turner number, TRANSFER_RUN, or NONE (Table 2-1). -/
def readOwner : Reader Owner := fun bs => do
  let (k, r) ← readNat 1 0 3 bs
  match k with
  | 0 => (readVessel r).map fun x => (.vessel x.1, x.2)
  | 1 => (readTurner r).map fun x => (.turner x.1, x.2)
  | 2 => some (.run, r)
  | _ => some (.none, r)

/-- The range of an MP value (Table 2-1). -/
abbrev valueMin : Int := -2097152
abbrev valueMax : Int := 2097151

/-- A temperature setting in 0.1 °C. -/
def readTemp : Reader Int := readInt 2 (-500) 1500

/-- An MP entry: range min ≤ max is part of their range, and a limit's range is that of an MP value (Table 2-1). -/
def readMp : Reader MpEntry := fun bs => do
  let (station, r) ← readStation bs
  let (channel, r) ← readNat 1 0 15 r
  let (kind, r) ← readName MpKind.all r
  let (owner, r) ← readOwner r
  let (role, r) ← readName Role.all r
  let (rmin, r) ← readInt 3 valueMin valueMax r
  let (rmax, r) ← readInt 3 rmin valueMax r
  let (stale, r) ← readNat 2 1 600 r
  let (low, r) ← readOpt 3 (readInt 3 valueMin valueMax) r
  let (high, r) ← readOpt 3 (readInt 3 valueMin valueMax) r
  let (hyst, r) ← readOpt 3 (readNat 3 0 4194303) r
  let (settle, r) ← readNat 1 0 15 r
  let (watch, r) ← readFlag r
  let (forward, r) ← readFlag r
  some ({ station, channel, kind, owner, role, rmin, rmax, stale, low, high, hyst, settle, watch, forward }, r)

def readStationEntry : Reader StationEntry := fun bs => do
  let (fwdUnmapped, r) ← readFlag bs
  let (window, r) ← readNat 1 2 20 r
  some ({ fwdUnmapped, window }, r)

/-- A descriptor index, or END as an absent one (R175). -/
def readLink : Reader (Option Nat) := readOpt 1 (readNat 1 0 95)

def readDescriptor : Reader Descriptor := fun bs => do
  let (station, r) ← readStation bs
  let (active, r) ← readFlag r
  let (link, r) ← readLink r
  let (missLimit, r) ← readNat 1 1 15 r
  some ({ station, active, link, missLimit }, r)

/-- A phase state of the vessel's kind, by its place. -/
def phaseCount (v : Fin 12) : Nat :=
  match vesselIs v with
  | .steep _ => SteepState.all.length
  | .comp _ => CompState.all.length
  | .kiln _ => KilnState.all.length

/-- An owner that a condition may name: a vessel, a turner or the transfer run (Table 8-2). -/
def readSubject : Reader (Owner × Role) := fun bs => do
  let (owner, r) ← readOwner bs
  let (role, r) ← readName Role.all r
  if owner = .none then none else some ((owner, role), r)

/-- A condition: its kind, its subject and its state (Table 8-2). -/
def readCondition : Reader Condition := fun bs => do
  let (k, r) ← readNat 1 0 5 bs
  match k with
  | 0 => some (.always, r)
  | 1 =>
    let (o, r) ← readSubject r
    let (c, r) ← readName CompName.all r
    some (.comparator o.1 o.2 c, r)
  | 2 =>
    let (o, r) ← readSubject r
    let (st, r) ← readName MpStatus.all r
    some (.status o.1 o.2 st, r)
  | 3 =>
    let (v, r) ← readVessel r
    let (code, r) ← readNat 1 0 (phaseCount v - 1) r
    some (.phase v code, r)
  | 4 =>
    let (t, r) ← readTurner r
    let (st, r) ← readName TurnerState.all r
    some (.turner t st, r)
  | _ =>
    let (v, r) ← readVessel r
    let (st, r) ← readName (TransferState.all.map some ++ [none]) r
    some (.transfer v st, r)

def readAction : Reader Action := fun bs => do
  let (k, r) ← readNat 1 0 2 bs
  match k with
  | 0 => some (.refuse, r)
  | 1 =>
    let (lo, r) ← readInt 4 (-2147483648) 2147483647 r
    let (hi, r) ← readInt 4 (-2147483648) 2147483647 r
    some (.clamp lo hi, r)
  | _ =>
    let (k, r) ← readFin 10 2 (by decide) r
    some (.clampToCap k, r)

def readInterlock : Reader Interlock := fun bs => do
  let (station, r) ← readNat 1 0 63 bs
  let (code, r) ← readOpt 1 (readNat 1 1 12) r
  let (set, r) ← readNat 1 1 7 r
  let (cond, r) ← readCondition r
  let (isNot, r) ← readNat 1 0 1 r
  let (action, r) ← readAction r
  some ({ station, code, onPlant := decide (set % 2 = 1), onSequencer := decide (set / 2 % 2 = 1)
          onOverride := decide (set / 4 = 1), cond, is := decide (isNot = 0), action }, r)

/-- The watch interval in seconds (R38). R47 gives the entry's fields besides it, and no order: it stands first in the entry of
every vessel (DESIGN CHOICE, assumption 63). -/
def readWatch : Reader Nat := readNat 2 1 600

def readSteepCfg : Reader SteepCfg := fun bs => do
  let (watch, r) ← readWatch bs
  let (fill, r) ← readStation r
  let (drain, r) ← readStation r
  let (water, r) ← readOpt 1 readStation r
  let (aerate, r) ← readOpt 1 readStation r
  let (fan, r) ← readStation r
  let (full, r) ← readNat 2 1 10000 r
  let (empty, r) ← readNat 2 0 9999 r
  some ({ watch, fill, drain, water, aerate, fan, full, empty }, r)

def readCompCfg : Reader CompCfg := fun bs => do
  let (watch, r) ← readWatch bs
  let (air, r) ← readStation r
  let (fan, r) ← readStation r
  let (sprinkler, r) ← readOpt 1 readStation r
  let (length, r) ← readNat 2 1000 60000 r
  some ({ watch, air, fan, sprinkler, length }, r)

def readKilnCfg : Reader KilnCfg := fun bs => do
  let (watch, r) ← readWatch bs
  let (air, r) ← readStation r
  let (fan, r) ← readStation r
  let (burner, r) ← readStation r
  let (peat, r) ← readOpt 1 readStation r
  some ({ watch, air, fan, burner, peat }, r)

def readTurnerCfg : Reader TurnerCfg := fun bs => do
  let (drive, r) ← readStation bs
  let (moveLimit, r) ← readNat 2 1 600 r
  let (passLimit, r) ← readNat 1 1 240 r
  let (endTol, r) ← readNat 2 0 2000 r
  let (markTol, r) ← readNat 2 0 2000 r
  some ({ drive, moveLimit, passLimit, endTol, markTol }, r)

/-- A phase of a steep program (Table 3-4). The aeration is `on or off', which the table does not call a flag: it is taken as
one, 1 for on and 0 for off (DESIGN CHOICE, assumption 98). -/
def readSteepPhase : Reader SteepPhase := fun bs => do
  let (kind, r) ← readName PhaseKind.all bs
  let (duration, r) ← readNat 2 1 65535 r
  let (water, r) ← readTemp r
  let (aeration, r) ← readFlag r
  let (fan, r) ← readNat 2 0 6000 r
  let (weigh, r) ← readFlag r
  some ({ kind, duration, water, aeration, fan, weigh }, r)

/-- The program-wide fields of a steep program (Table 3-5) and its count of phases. Early cast is `permitted or not', which the
table does not call a flag: it is taken as one, 1 for permitted and 0 for not (DESIGN CHOICE, assumption 98). -/
def readSteepHeader : Reader (Header SteepWide) := fun bs => do
  let (target, r) ← readNat 2 0 9999 bs
  let (earlyCast, r) ← readFlag r
  let (fillTimeout, r) ← readNat 2 1 65535 r
  let (drainTimeout, r) ← readNat 2 1 65535 r
  let (settle, r) ← readNat 2 0 600 r
  let (count, r) ← readNat 1 0 12 r
  some ({ count, wide := { target, earlyCast, fillTimeout, drainTimeout, settle } }, r)

def readGermStage : Reader GermStage := fun bs => do
  let (duration, r) ← readNat 2 1 65535 bs
  let (air, r) ← readTemp r
  let (fan, r) ← readNat 2 0 6000 r
  let (interval, r) ← readNat 2 0 65535 r
  let (spread, r) ← readNat 2 0 1000 r
  let (bedHigh, r) ← readOpt 2 readTemp r
  let (litres, r) ← readNat 2 0 10000 r
  let (ceiling, r) ← readNat 2 0 9999 r
  some ({ duration, air, fan, interval, spread, bedHigh, litres, ceiling }, r)

def readGermHeader : Reader (Header Unit) := fun bs => do
  let (count, r) ← readNat 1 0 8 bs
  some ({ count, wide := () }, r)

/-- A stage's end value, in the range that its end kind gives it (Table 5-2). BREAK and TIME do not use it and give it none:
any two bytes are taken (DESIGN CHOICE, assumption 93). -/
def readEndValue (k : EndKind) : Reader Int :=
  match k with
  | .moisture => readInt 2 0 9999
  | .airOff => readInt 2 (-500) 1500
  | .brk | .time => readInt 2 (-32768) 32767

/-- A kiln stage, each field in its range of Table 5-2: the minimum duty in 0..r, r being the duty request. -/
def readKilnStage : Reader KilnStage := fun bs => do
  let (air, r) ← readTemp bs
  let (fan, r) ← readNat 2 0 6000 r
  let (endKind, r) ← readName EndKind.all r
  let (endValue, r) ← readEndValue endKind r
  let (minDur, r) ← readNat 2 0 65535 r
  let (maxDur, r) ← readNat 2 1 65535 r
  let (request, r) ← readNat 1 0 8 r
  let (minDuty, r) ← readNat 1 0 request r
  let (peat, r) ← readFlag r
  let (peatFloor, r) ← readNat 2 0 9999 r
  let (airHigh, r) ← readOpt 2 readTemp r
  let (breakRise, r) ← readNat 2 1 1000 r
  let (breakCeiling, r) ← readNat 2 0 9999 r
  some ({ air, fan, endKind, endValue, minDur, maxDur, request, minDuty, peat, peatFloor, airHigh, breakRise,
          breakCeiling }, r)

def readKilnHeader : Reader (Header KilnWide) := fun bs => do
  let (coolDur, r) ← readNat 2 1 65535 bs
  let (coolFan, r) ← readNat 2 0 6000 r
  let (overrideInt, r) ← readNat 2 1 600 r
  let (recoveryInt, r) ← readNat 2 1 600 r
  let (blindCap, r) ← readNat 1 0 8 r
  let (count, r) ← readNat 1 0 8 r
  some ({ count, wide := { coolDur, coolFan, overrideInt, recoveryInt, blindCap } }, r)

/-- n route steps. -/
def readSteps : Nat → Reader (List RouteStep)
  | 0, bs => some ([], bs)
  | n + 1, bs => do
    let (station, r) ← readStation bs
    let (number, r) ← readNat 1 0 255 r
    let (rest, r) ← readSteps n r
    some ({ station, number } :: rest, r)

/-- A route: its number of steps 1..4 in one byte, and the steps (Table 6-2; the count byte is a DESIGN CHOICE, assumption
68). -/
def readRoute : Reader (List RouteStep) := fun bs => do
  let (n, r) ← readNat 1 1 4 bs
  readSteps n r

def readRunCfg : Reader RunCfg := fun bs => do
  let (drawer, r) ← readStation bs
  let (routeTime, r) ← readNat 2 1 600 r
  let (noFlow, r) ← readNat 2 1 600 r
  let (runOn, r) ← readNat 2 1 600 r
  let (drawLimit, r) ← readNat 2 1 600 r
  let (residue, r) ← readNat 2 0 50000 r
  some ({ drawer, routeTime, noFlow, runOn, drawLimit, residue }, r)

/-- The entry of a WRITE ENTRY: its fields, or the empty mark (R184), after a flag byte (DESIGN CHOICE, assumption 46). -/
def readEntry {α : Type} (p : Reader α) (bs : List Byte) : Option (Option α) := readAll (readOpt 0 p) bs

/-! ## WRITE ENTRY on the staged copies (R184) -/

def ConfigTable.write (t : ConfigTable) (i : Nat) (bs : List Byte) : Option ConfigTable :=
  match i with
  | 0 => (readEntry (readNat 1 0 255) bs).map fun x => { t with own := x }
  | 1 => (readEntry (readNat 1 0 255) bs).map fun x => { t with plant := x }
  | 2 => (readEntry (readNat 2 1 600) bs).map fun x => { t with silence := x }
  | _ => (readEntry (readNat 1 0 16) bs).map fun x => { t with budget := x }

/-- An empty head is END, and an empty descriptor is as it is after a reset (R175; DESIGN CHOICE, assumption 12). -/
def Schedule.write (t : Schedule) (i : Nat) (bs : List Byte) : Option Schedule :=
  if i < 16 then (readEntry readLink bs).map fun x => { t with heads := t.heads.set i (x.getD none) }
  else (readEntry readDescriptor bs).map fun x =>
    { t with descs := t.descs.set (i - 16) (x.filter fun d => decide (d ≠ {})) }

def VesselTable.write (t : VesselTable) (i : Nat) (bs : List Byte) : Option VesselTable :=
  if i < 4 then (readEntry readSteepCfg bs).map fun x => { t with steeps := t.steeps.set i x }
  else if i < 10 then (readEntry readCompCfg bs).map fun x => { t with comps := t.comps.set (i - 4) x }
  else if i < 12 then (readEntry readKilnCfg bs).map fun x => { t with kilns := t.kilns.set (i - 10) x }
  else (readEntry readTurnerCfg bs).map fun x => { t with turners := t.turners.set (i - 12) x }

def ProgTable.write {ω σ : Type} (t : ProgTable ω σ) (width : Nat) (ph : Reader (Header ω)) (ps : Reader σ) (i : Nat)
    (bs : List Byte) : Option (ProgTable ω σ) :=
  if i % width = 0 then (readEntry ph bs).map fun x => { t with headers := t.headers.set i x }
  else (readEntry ps bs).map fun x => { t with stages := t.stages.set i x }

def TransferTable.write (t : TransferTable) (i : Nat) (bs : List Byte) : Option TransferTable :=
  if i < 38 then (readEntry readRoute bs).map fun x => { t with routes := t.routes.set i x }
  else (readEntry readRunCfg bs).map fun x => { t with run := x }

/-- WRITE ENTRY of tables 1..10: the staged copy, or none where the fields are not an entry's. -/
def Tables.write (t : Tables) (id i : Nat) (bs : List Byte) : Option Tables :=
  match id with
  | 1 => (t.config.write i bs).map fun x => { t with config := x }
  | 2 => (readEntry readStationEntry bs).map fun x => { t with station := t.station.set (i + 1) x }
  | 3 => (t.schedule.write i bs).map fun x => { t with schedule := x }
  | 4 => (readEntry readMp bs).map fun x => { t with mp := t.mp.set i x }
  | 5 => (readEntry readInterlock bs).map fun x => { t with interlock := t.interlock.set i x }
  | 6 => (t.vessel.write i bs).map fun x => { t with vessel := x }
  | 7 => (t.steep.write steepWidth readSteepHeader readSteepPhase i bs).map fun x => { t with steep := x }
  | 8 => (t.germ.write stageWidth readGermHeader readGermStage i bs).map fun x => { t with germ := x }
  | 9 => (t.kiln.write stageWidth readKilnHeader readKilnStage i bs).map fun x => { t with kiln := x }
  | 10 => (t.transfer.write i bs).map fun x => { t with transfer := x }
  | _ => none

/-- WRITE ENTRY of the excise tables; their entries are never empty (Table 7-5). -/
def ExciseTables.write (t : ExciseTables) (id i : Nat) (bs : List Byte) : Option ExciseTables :=
  let entry (k lo hi : Nat) : Option Nat := (readEntry (readNat k lo hi) bs).join
  match id, i with
  | 11, 0 => (entry 1 0 8).map fun x => { t with castDraws := x }
  | 11, 1 => (entry 1 0 8).map fun x => { t with loadDraws := x }
  | 11, 2 => (entry 1 0 8).map fun x => { t with stripDraws := x }
  | 11, _ => (entry 1 0 100).map fun x => { t with tolerance := x }
  | 12, _ => (entry 2 0 65535).map fun x => { t with seed := x }
  | 13, _ => (entry 1 1 255).map fun x => { t with terminal := x }
  | 14, _ => (entry 4 0 max32).map fun x => { t with code := x }
  | _, _ => none

/-- Table id of copy t is taken from copy u: COMMIT and DISCARD. -/
def Tables.take (t u : Tables) (id : Nat) : Tables :=
  match id with
  | 1 => { t with config := u.config }
  | 2 => { t with station := u.station }
  | 3 => { t with schedule := u.schedule }
  | 4 => { t with mp := u.mp }
  | 5 => { t with interlock := u.interlock }
  | 6 => { t with vessel := u.vessel }
  | 7 => { t with steep := u.steep }
  | 8 => { t with germ := u.germ }
  | 9 => { t with kiln := u.kiln }
  | 10 => { t with transfer := u.transfer }
  | _ => t

def ExciseTables.take (t u : ExciseTables) (id : Nat) : ExciseTables :=
  match id with
  | 11 => { t with castDraws := u.castDraws, loadDraws := u.loadDraws, stripDraws := u.stripDraws, tolerance := u.tolerance }
  | 12 => { t with seed := u.seed }
  | 13 => { t with terminal := u.terminal }
  | 14 => { t with code := u.code }
  | _ => t

/-- The entries of an excise table as their TABLE_CHANGE entries carry them: 0 for the seed and the code (R147). -/
def ExciseTables.changes (t : ExciseTables) (id : Nat) : List Nat :=
  match id with
  | 11 => [t.castDraws, t.loadDraws, t.stripDraws, t.tolerance]
  | 12 => [0]
  | 13 => [t.terminal]
  | 14 => [0]
  | _ => []

end Sys2Proof.Machine
end

