-- ==== Sys2Proof/Machine/Commit.lean ====
section
/-! DEFINITION. Machine/Commit.lean: the checks and the effects of a COMMIT, table by table (Table 11-5). -/

namespace Sys2Proof.Machine

/-! ## CONFIGURATION (R101, R184) -/

def State.commitConfigOk (s : State) : Status :=
  let c := s.staged.config
  let own := c.own.getD 112
  let plant := c.plant.getD 1
  if own ≤ 63 ∨ own = plant ∨ own = s.terminalAddr ∨ plant = s.terminalAddr then .badArgument
  else if c.budgetOf < s.grantSum then .wrongState
  else .ok

/-- A raised budget makes K0 and then K1 re-evaluate (R101). -/
def State.commitConfig (s : State) : State :=
  let s1 := s.onTables fun t => t.take s.staged tCONFIG
  if s.budget < s1.budget then allKilns.foldl (fun s k => s.regrant k) s1 else s1

/-! ## STATION (R174, R184) -/

/-- The stations that the running transfer needs: its route's and the committed drawer station. -/
def State.runStations (s : State) : List Nat :=
  match s.transfer.running with
  | some r => r.route.map (·.step.station) ++ (s.tables.transfer.run.map (·.drawer)).toList
  | none => []

def State.commitStationOk (s : State) : Status :=
  if s.runStations.all fun st => (s.staged.station.get st).isSome then .ok else .wrongState

/-- A station in both copies keeps its health record, a new one starts UP, one that leaves loses it. -/
def keepHealth (old : Tbl Health) (t : Tbl StationEntry) : Tbl Health :=
  t.map fun e => (e.1, (old.get e.1).getD {})

def State.commitStation (s : State) : State :=
  let s1 := s.onTables fun t => t.take s.staged tSTATION
  s1.onField fun f => { f with health := keepHealth f.health s.staged.station }

/-! ## POLL_SCHEDULE (R175, R177) -/

/-- Heads and links lie in 0..95, stations in 1..63 and miss limits in 1..15. -/
def Schedule.ok (t : Schedule) : Bool :=
  t.heads.all (fun h => decide (h.2 ≤ 95)) &&
    t.descs.all fun d =>
      d.2.link.all (fun n => decide (n ≤ 95)) && decide (1 ≤ d.2.station) && decide (d.2.station ≤ 63) &&
        decide (1 ≤ d.2.missLimit) && decide (d.2.missLimit ≤ 15)

def State.commitScheduleOk (s : State) : Status := if s.staged.schedule.ok then .ok else .badArgument

/-- The new schedule waits for the next cycle start, and the next overrun posts its notice. -/
def State.commitSchedule (s : State) : State :=
  (s.onTables fun t => t.take s.staged tSCHEDULE).onField fun f => { f with adopt := true, overrunSeen := false }

/-! ## MP (R24) -/

/-- The kind a role requires, by the class of its owner; none where the owner may not have the role (Table 2-4). NONE
takes any kind. -/
def roleAllows (o : Owner) (r : Role) (k : MpKind) : Bool :=
  let bedAir : Bool := match r with
    | .airOnTemp | .airOffTemp | .bedTemp1 | .bedTemp2 | .bedTemp3 | .bedTemp4 => k = .temperature
    | .airOnHumidity | .airOffHumidity => k = .humidity
    | .fanFlow => k = .airflow
    | .grainMass => k = .mass
    | .level => k = .level
    | .valvePos => k = .position
    | _ => false
  match o with
  | .vessel v => match vesselIs v with
    | .steep _ => match r with
      | .grainMass => k = .mass
      | .level => k = .level
      | .waterTemp => k = .temperature
      | .co2 => k = .co2
      | .fanFlow => k = .airflow
      | .valvePos => k = .position
      | _ => false
    | .comp _ => bedAir
    | .kiln _ => bedAir || ((r = .burnerState || r = .peatState) && k = .runState)
  | .turner _ => (r = .turnerEncoder && k = .encoder) || (r = .turnerState && k = .runState)
  | .run =>
    (r = .weigherTotal && k = .total) || (r = .weigherRate && k = .rate) || (r = .drawerState && k = .runState)
  | .none => r = .none

/-- No two entries share a station and channel. -/
def distinctChannels : Tbl MpEntry → Bool
  | [] => true
  | (_, e) :: t => t.all (fun x => !(x.2.station = e.station && x.2.channel = e.channel)) && distinctChannels t

/-- low ≤ high, where both limits are present. -/
def limitsOrdered (low high : Option Int) : Bool :=
  match low, high with
  | some l, some h => decide (l ≤ h)
  | _, _ => true

/-- An entry keeps the conditions of R24 that concern it alone. -/
def MpEntry.ok (e : MpEntry) : Bool :=
  roleAllows e.owner e.role e.kind && decide (e.rmin ≤ e.rmax) &&
    (e.kind != .encoder || (decide (-1048576 ≤ e.rmin) && decide (e.rmax ≤ 1048575))) &&
    decide (1 ≤ e.stale) && decide (e.stale ≤ 600) && decide (e.settle ≤ 15) && limitsOrdered e.low e.high

/-- An MP of a vessel in AUTO would be removed: its number is emptied, or taken by another MP (R24). -/
def State.removesAutoMp (s : State) : Bool :=
  s.tables.mp.any fun x => match x.2.owner with
    | .vessel v =>
      decide ((s.vessel v).mode = .auto) && match s.staged.mp.get x.1 with
        | some e => !(e.keeps x.2 && e.owner = x.2.owner && e.role = x.2.role)
        | none => true
    | _ => false

def State.commitMpOk (s : State) : Status :=
  if !(s.staged.mp.all (fun e => e.2.ok) && distinctChannels s.staged.mp) then .badArgument
  else if s.removesAutoMp then .wrongState
  else .ok

/-! ## INTERLOCK (R155) -/

/-- A role that Table 2-4 allows for an owner, whatever the kind. -/
def roleOf (o : Owner) (r : Role) : Bool := MpKind.all.any fun k => roleAllows o r k

def Condition.ok : Condition → Bool
  | .always => true
  | .comparator o r _ => roleOf o r && o != .none
  | .status o r _ => roleOf o r && o != .none
  | .phase v code => decide (code < phaseCount v)
  | .turner _ _ => true
  | .transfer _ _ => true

def Interlock.ok (e : Interlock) : Bool :=
  decide (e.station ≤ 63) && e.code.all (fun c => decide (1 ≤ c) && decide (c ≤ 12)) &&
    (e.onPlant || e.onSequencer || e.onOverride) && e.cond.ok &&
    match e.action with
    | .clamp lo hi => decide (lo ≤ hi)
    | .refuse | .clampToCap _ => true

def State.commitInterlockOk (s : State) : Status :=
  if s.staged.interlock.all (fun e => e.2.ok) then .ok else .badArgument

/-! ## VESSEL (R47, R61, R62, R89, R184) -/

def VesselTable.ok (t : VesselTable) : Bool :=
  t.steeps.all (fun e => decide (e.2.empty < e.2.full)) &&
    t.comps.all (fun e => decide (1000 ≤ e.2.length) && decide (e.2.length ≤ 60000)) &&
    t.kilns.all (fun e => decide (e.2.peat ≠ some e.2.burner)) &&
    t.turners.all (fun x => t.comps.all fun e => decide (2 * x.2.endTol < e.2.length)) &&
    match t.turners.get 0, t.turners.get 1 with
    | some a, some b => decide (a.drive ≠ b.drive)
    | _, _ => true

/-- The entry of a vessel that is not OFF, or of a turner that is not UNHOMED, would be left empty. -/
def State.emptiesVessel (s : State) : Bool :=
  allVessels.any (fun v => decide ((s.vessel v).mode ≠ .off) && (s.staged.vessel.watchOf v).isNone) ||
    allTurners.any fun t => decide ((s.turner t).state ≠ .unhomed) && (s.staged.vessel.turners.get t.val).isNone

def State.commitVesselOk (s : State) : Status :=
  if !s.staged.vessel.ok then .badArgument else if s.emptiesVessel then .wrongState else .ok

/-! ## Programs (R48, R63, R90) -/

/-- A program among n that is loaded in the old copy, in use, and not loaded in the new one. -/
def unloads {ω σ : Type} (old new : ProgTable ω σ) (width n : Nat) (used : Nat → Bool) : Bool :=
  (List.range n).any fun p => old.loaded width p && !new.loaded width p && used p

def State.commitSteepOk (s : State) : Status :=
  let used := s.programInUse (fun b => b = .steeping || b = .casting) (·.steepProg)
  if unloads s.tables.steep s.staged.steep steepWidth 8 used then .wrongState else .ok

/-- A steep in AUTO and IDLE tries again (R50). -/
def State.steepRetry (s : State) (i : Fin 4) : State :=
  if s.steepMode i = .auto ∧ (s.steep i).phase = .idle then s.steepBegin i else s

/-- The end value lies in the range of the end kind (R90). -/
def KilnStage.ok (f : KilnStage) : Bool :=
  decide (f.minDur ≤ f.maxDur) && decide (f.minDuty ≤ f.request) &&
    match f.endKind with
    | .moisture => decide (0 ≤ f.endValue) && decide (f.endValue ≤ 9999)
    | .airOff => decide (-500 ≤ f.endValue) && decide (f.endValue ≤ 1500)
    | .brk | .time => true

def State.commitKilnOk (s : State) : Status :=
  let used := s.programInUse (fun b => b = .kilning || b = .stripping) (·.kilnProg)
  if !((List.range 4).all fun p => (s.staged.kiln.stagesOf stageWidth p).all (·.ok)) then .badArgument
  else if unloads s.tables.kiln s.staged.kiln stageWidth 4 used then .wrongState
  else .ok

/-! ## TRANSFER (R119, R184) -/

/-- No station is named twice. -/
def distinctSteps : List RouteStep → Bool
  | [] => true
  | x :: xs => xs.all (fun y => y.station != x.station) && distinctSteps xs

def TransferTable.ok (t : TransferTable) : Bool :=
  t.routes.all fun e =>
    !e.2.isEmpty && distinctSteps e.2 && e.2.all fun x => t.run.all fun c => x.station != c.drawer

def State.commitTransferOk (s : State) : Status :=
  if !s.staged.transfer.ok then .badArgument
  else if s.transfer.running.isSome ∧ s.staged.transfer.run.map (·.drawer) ≠ s.tables.transfer.run.map (·.drawer) then
    .wrongState
  else .ok

/-! ## COMMIT of tables 1..10 -/

/-- The status a COMMIT is answered with. -/
def State.commitOk (s : State) (id : Nat) : Status :=
  match id with
  | 1 => s.commitConfigOk
  | 2 => s.commitStationOk
  | 3 => s.commitScheduleOk
  | 4 => s.commitMpOk
  | 5 => s.commitInterlockOk
  | 6 => s.commitVesselOk
  | 7 => s.commitSteepOk
  | 8 => .ok
  | 9 => s.commitKilnOk
  | 10 => s.commitTransferOk
  | _ => .badArgument

/-- An accepted COMMIT: the committed copy is the staged one, and the owner takes the effects. The vessels of a kind that try
again at a COMMIT of their programs do so in ascending number (R50, R65, R92; DESIGN CHOICE, assumption 89). -/
def State.commitTable (s : State) (id : Nat) : State :=
  let s1 := s.onTables fun t => t.take s.staged id
  match id with
  | 1 => s.commitConfig
  | 2 => s.commitStation
  | 3 => s.commitSchedule
  | 4 => s.commitMp s.staged.mp
  | 6 => s1.emit .scan
  | 7 => allSteeps.foldl (fun s i => s.steepRetry i) s1
  | 8 => allComps.foldl (fun s c => s.germRetry c) s1
  | 9 => allKilns.foldl (fun s k => s.kilnRetry k) s1
  | 10 => s1.emit .scan
  | _ => s1

/-! ## COMMIT of the excise tables (R147) -/

/-- Every entry of an excise table lies in its range (Table 7-5). -/
def ExciseTables.ok (t : ExciseTables) (id : Nat) : Bool :=
  match id with
  | 11 => decide (t.castDraws ≤ 8) && decide (t.loadDraws ≤ 8) && decide (t.stripDraws ≤ 8) && decide (t.tolerance ≤ 100)
  | 12 => decide (t.seed ≤ max16)
  | 13 => decide (1 ≤ t.terminal) && decide (t.terminal ≤ 255)
  | 14 => decide (t.code ≤ max32)
  | _ => true

/-- The status a COMMIT of an excise table is refused with, or OK: the ranges and the terminal address, then the space. -/
def State.commitExciseOk (s : State) (id : Nat) : Status :=
  let t := s.excise.staged
  if !t.ok id then .badArgument
  else if id = idTerminal ∧ (t.terminal = s.ownAddr ∨ t.terminal = s.plantAddr) then .badArgument
  else if s.excise.avail < (t.changes id).length then .exciseFull
  else .ok

/-- One TABLE_CHANGE entry for each entry of the table, in index order. -/
def State.writeChanges (s : State) (id : Nat) : Nat → List Nat → State
  | _, [] => s
  | i, v :: vs =>
    (s.writeEntry { number := 0, kind := kTABLE, quantity := v, a0 := id, a1 := i }).writeChanges id (i + 1) vs

/-- The event of a long request of the excise terminal is closed by its counters copy, on which the reply waits. Where the
unit has entered STORE_FAULT, the reply is NOT_READY at once (R145, R147). -/
def State.closeLong (s : State) : State :=
  let s1 := s.closeEvent true
  if s1.excise.storeFault then s1.endLong .excise .notReady 0 else s1

/-- An accepted COMMIT of an excise table. Where its entries reach the number 4,294,967,295 before the last of them, the rest of
them are not written, the table is in force all the same, and the reply is NOT_READY (DESIGN CHOICE, assumption 39). -/
def State.commitExcise (s : State) (id : Nat) : State :=
  let t := s.excise.staged
  let s1 := (s.writeChanges id 0 (t.changes id)).onExcise fun e => { e with
    now := { e.now with
      tables := e.now.tables.take t id
      gen := if id = idSeed then t.seed else e.now.gen } }
  let s2 := s1.closeLong
  if id = idDrawPlan then s2.emit .scan else s2

end Sys2Proof.Machine
end

