-- ==== Sys2Proof/Machine/Reads.lean ====
section
/-! DEFINITION. Machine/Reads.lean: what the READ requests return (R20, R42, R60, R88, R116, R134, R146, R181, R184, R186,
R187), field by field in the order of their owner's rule (R182). -/

namespace Sys2Proof.Machine

/-! ## Table entries -/

def putStation (n : Nat) : ResultBytes := putNat 1 n

def putOwner (o : Owner) : ResultBytes :=
  match o with
  | .vessel v => putNat 1 0 ++ putNat 1 v.val
  | .turner t => putNat 1 1 ++ putNat 1 t.val
  | .run => putNat 1 2
  | .none => putNat 1 3

/-- The hysteresis is 0 when absent (Table 2-1). -/
def putHyst (h : Option Nat) : ResultBytes :=
  match h with
  | some n => some 0 :: putNat 3 n
  | none => some 1 :: putNat 3 0

def MpEntry.put (e : MpEntry) : ResultBytes :=
  putStation e.station ++ putNat 1 e.channel ++ putNat 1 e.kind.code ++ putOwner e.owner ++ putNat 1 e.role.code ++
    putInt 3 e.rmin ++ putInt 3 e.rmax ++ putNat 2 e.stale ++ putOptInt 3 e.low ++ putOptInt 3 e.high ++ putHyst e.hyst ++
    putNat 1 e.settle ++ putFlag e.watch ++ putFlag e.forward

/-- A value as its 22 bits: for ENCODER the marker is the top bit and the delta the other 21 (R27). -/
def valueBits (k : MpKind) (v : MpValue) : Nat :=
  if k = .encoder then (if v.marker then 2097152 else 0) + (v.val % 2097152).toNat else (v.val % 4194304).toNat

/-- A last value in 3 bytes: signed, or for ENCODER the 22 bits with the marker (DESIGN CHOICE, assumption 13). -/
def putValue (k : MpKind) (v : MpValue) : ResultBytes :=
  if k = .encoder then putNat 3 (valueBits k v) else putInt 3 v.val

/-- The live state of a committed MP (R42); the age is counted from the last good time to the read, modulo 2^32 (DESIGN CHOICE,
assumption 95). -/
def MpLive.put (l : MpLive) (k : MpKind) (now : Nat) : ResultBytes :=
  let settling : Option (Level × Nat) := match l.comp with
    | some (.settling r n) => some (r, n)
    | _ => none
  putNat 1 l.status.code ++ putOpt 3 (l.last.map (putValue k)) ++ putOptNat 4 (l.lastGood.map (elapsed now)) ++
    putOptNat 1 (l.comp.map Comparator.code) ++ putOptNat 1 (settling.map (·.1.code)) ++ putOptNat 1 (settling.map (·.2)) ++
    putOptInt 2 l.stageHigh

def StationEntry.put (e : StationEntry) : ResultBytes := putFlag e.fwdUnmapped ++ putNat 1 e.window

/-- A health record (R181): UP is 1 and DOWN 0 (Table 11-11). The age of the last good answer is taken modulo 2^32 (DESIGN
CHOICE, assumption 95). -/
def Health.put (h : Health) (now : Nat) : ResultBytes :=
  putNat 1 (if h.up then 1 else 0) ++ putNat 1 h.misses ++ putOptNat 4 (h.lastGood.map (elapsed now))

def putLink (l : Option Nat) : ResultBytes := putOptNat 1 l

def Descriptor.put (d : Descriptor) : ResultBytes :=
  putStation d.station ++ putFlag d.active ++ putLink d.link ++ putNat 1 d.missLimit

def Condition.put (c : Condition) : ResultBytes :=
  match c with
  | .always => putNat 1 0
  | .comparator o r n => putNat 1 1 ++ putOwner o ++ putNat 1 r.code ++ putNat 1 n.code
  | .status o r st => putNat 1 2 ++ putOwner o ++ putNat 1 r.code ++ putNat 1 st.code
  | .phase v code => putNat 1 3 ++ putNat 1 v.val ++ putNat 1 code
  | .turner t st => putNat 1 4 ++ putNat 1 t.val ++ putNat 1 st.code
  | .transfer v st => putNat 1 5 ++ putNat 1 v.val ++ putNat 1 ((st.map TransferState.code).getD TransferState.all.length)

def Action.put (a : Action) : ResultBytes :=
  match a with
  | .refuse => putNat 1 0
  | .clamp lo hi => putNat 1 1 ++ putInt 4 lo ++ putInt 4 hi
  | .clampToCap k => putNat 1 2 ++ putNat 1 (kilnNo k).val

/-- A set of three names, one bit each in the order PLANT, SEQUENCER, OVERRIDE. -/
def Interlock.set (e : Interlock) : Nat :=
  (if e.onPlant then 1 else 0) + (if e.onSequencer then 2 else 0) + (if e.onOverride then 4 else 0)

def Interlock.put (e : Interlock) : ResultBytes :=
  putStation e.station ++ putOptNat 1 e.code ++ putNat 1 e.set ++ e.cond.put ++ putNat 1 (if e.is then 0 else 1) ++
    e.action.put

def SteepCfg.put (c : SteepCfg) : ResultBytes :=
  putNat 2 c.watch ++ putStation c.fill ++ putStation c.drain ++ putOptNat 1 c.water ++ putOptNat 1 c.aerate ++
    putStation c.fan ++ putNat 2 c.full ++ putNat 2 c.empty

def CompCfg.put (c : CompCfg) : ResultBytes :=
  putNat 2 c.watch ++ putStation c.air ++ putStation c.fan ++ putOptNat 1 c.sprinkler ++ putNat 2 c.length

def KilnCfg.put (c : KilnCfg) : ResultBytes :=
  putNat 2 c.watch ++ putStation c.air ++ putStation c.fan ++ putStation c.burner ++ putOptNat 1 c.peat

def TurnerCfg.put (c : TurnerCfg) : ResultBytes :=
  putStation c.drive ++ putNat 2 c.moveLimit ++ putNat 1 c.passLimit ++ putNat 2 c.endTol ++ putNat 2 c.markTol

/-- A steep phase; the weigh flag is a flag, and the aeration is sent as one, 1 for on (DESIGN CHOICE, assumption 98). -/
def SteepPhase.put (f : SteepPhase) : ResultBytes :=
  putNat 1 f.kind.code ++ putNat 2 f.duration ++ putInt 2 f.water ++ putFlag f.aeration ++ putNat 2 f.fan ++ putFlag f.weigh

/-- The program-wide fields of a steep program; early cast is sent as a flag, 1 for permitted (DESIGN CHOICE, assumption 98). -/
def SteepWide.put (w : SteepWide) : ResultBytes :=
  putNat 2 w.target ++ putFlag w.earlyCast ++ putNat 2 w.fillTimeout ++ putNat 2 w.drainTimeout ++ putNat 2 w.settle

def GermStage.put (f : GermStage) : ResultBytes :=
  putNat 2 f.duration ++ putInt 2 f.air ++ putNat 2 f.fan ++ putNat 2 f.interval ++ putNat 2 f.spread ++
    putOptInt 2 f.bedHigh ++ putNat 2 f.litres ++ putNat 2 f.ceiling

def KilnStage.put (f : KilnStage) : ResultBytes :=
  putInt 2 f.air ++ putNat 2 f.fan ++ putNat 1 f.endKind.code ++ putInt 2 f.endValue ++ putNat 2 f.minDur ++
    putNat 2 f.maxDur ++ putNat 1 f.request ++ putNat 1 f.minDuty ++ putFlag f.peat ++ putNat 2 f.peatFloor ++
    putOptInt 2 f.airHigh ++ putNat 2 f.breakRise ++ putNat 2 f.breakCeiling

def KilnWide.put (w : KilnWide) : ResultBytes :=
  putNat 2 w.coolDur ++ putNat 2 w.coolFan ++ putNat 2 w.overrideInt ++ putNat 2 w.recoveryInt ++ putNat 1 w.blindCap

def RouteStep.put (x : RouteStep) : ResultBytes := putStation x.station ++ putNat 1 x.number

def RunCfg.put (c : RunCfg) : ResultBytes :=
  putStation c.drawer ++ putNat 2 c.routeTime ++ putNat 2 c.noFlow ++ putNat 2 c.runOn ++ putNat 2 c.drawLimit ++
    putNat 2 c.residue

/-- An entry as it is read: the empty mark, or its fields. -/
def putEntry {α : Type} (f : α → ResultBytes) (o : Option α) : ResultBytes :=
  match o with
  | some a => some 0 :: f a
  | none => [some 1]

def ProgTable.putAt {ω σ : Type} (t : ProgTable ω σ) (width : Nat) (pw : ω → ResultBytes) (ps : σ → ResultBytes) (i : Nat) :
    ResultBytes :=
  if i % width = 0 then putEntry (fun h => pw h.wide ++ putNat 1 h.count) (t.headers.get i)
  else putEntry ps (t.stages.get i)

/-- Entry i of table id in a copy, its fields alone. -/
def Tables.putAt (t : Tables) (id i : Nat) : ResultBytes :=
  match id with
  | 1 => match i with
    | 0 => putEntry (putNat 1) t.config.own
    | 1 => putEntry (putNat 1) t.config.plant
    | 2 => putEntry (putNat 2) t.config.silence
    | _ => putEntry (putNat 1) t.config.budget
  | 2 => putEntry StationEntry.put (t.station.get (i + 1))
  | 3 =>
    if i < 16 then putEntry putLink (some (t.schedule.heads.get i))
    else putEntry Descriptor.put (some (t.schedule.desc (i - 16)))
  | 4 => putEntry MpEntry.put (t.mp.get i)
  | 5 => putEntry Interlock.put (t.interlock.get i)
  | 6 =>
    if i < 4 then putEntry SteepCfg.put (t.vessel.steeps.get i)
    else if i < 10 then putEntry CompCfg.put (t.vessel.comps.get (i - 4))
    else if i < 12 then putEntry KilnCfg.put (t.vessel.kilns.get (i - 10))
    else putEntry TurnerCfg.put (t.vessel.turners.get (i - 12))
  | 7 => t.steep.putAt steepWidth SteepWide.put SteepPhase.put i
  | 8 => t.germ.putAt stageWidth (fun _ => []) GermStage.put i
  | 9 => t.kiln.putAt stageWidth KilnWide.put KilnStage.put i
  | 10 =>
    if i < 38 then putEntry (fun r => putList r RouteStep.put) (t.transfer.routes.get i)
    else putEntry RunCfg.put t.transfer.run
  | _ => []

/-- Entry i of DRAW_PLAN or TERMINAL_ADDRESS in a copy. -/
def ExciseTables.putAt (t : ExciseTables) (id i : Nat) : ResultBytes :=
  some 0 :: putNat 1 ((t.changes id)[i]?.getD 0)

/-- The live state that goes with a committed entry: an MP's (R42) or a station's (R181). -/
def State.putLive (s : State) (id i : Nat) : ResultBytes :=
  match id with
  | 2 => match s.field.health.get (i + 1) with
    | some h => h.put s.timeNow
    | none => []
  | 4 => match s.tables.mp.get i with
    | some e => (s.live i).put e.kind s.timeNow
    | none => []
  | _ => []

/-- The result of TABLE READ. -/
def State.readTable (s : State) (id i : Nat) (committed : Bool) : ResultBytes :=
  if exciseTable id then (if committed then s.excise.now.tables else s.excise.staged).putAt id i
  else if committed then s.tables.putAt id i ++ s.putLive id i
  else s.staged.putAt id i

/-! ## Batches (Table 1-1) -/

/-- The marks, one bit each in the order of Table 1-1. -/
def Marks.code (m : Marks) : Nat :=
  (if m.shortSteep then 1 else 0) + (if m.waterFloor then 2 else 0) + (if m.waterCeiling then 4 else 0) +
    (if m.disturbed then 8 else 0) + (if m.massDeviation then 16 else 0)

def Batch.put (b : Batch) : ResultBytes :=
  putNat 2 b.id ++ putNat 1 b.state.code ++ putNat 1 b.vessel ++ putNat 1 b.steepProg ++ putNat 1 b.germProg ++
    putNat 1 b.kilnProg ++ putNat 2 b.m0 ++ putOptNat 4 (b.acct.map (·.intake)) ++ putOptNat 4 (b.acct.map (·.dry)) ++
    putOptNat 4 (b.acct.map (·.water)) ++ putOptNat 2 (b.acct.map (·.moisture)) ++ putOptNat 2 (b.acct.map (·.rem)) ++
    putNat 1 b.marks.code ++ putNat 2 b.gaps ++ putNat 4 b.peatSeconds ++ putNat 4 b.litres ++ putNat 1 b.draws ++
    putOptNat 4 b.steepStart ++ putOptNat 4 b.germStart ++ putOptNat 4 b.kilnStart

/-! ## Vessels (R42, R60, R88, R116) -/

/-- The BLIND flag and the watch timer (R42); a stopped timer is sent as an absent field (DESIGN CHOICE, assumption 88). -/
def VesselRec.putWatch (r : VesselRec) : ResultBytes := putFlag r.blind ++ putOptNat 2 r.watch

/-- The mode and the fault code or none. -/
def VesselRec.putMode (r : VesselRec) : ResultBytes := putNat 1 r.mode.code ++ putOptNat 1 (r.fault.map FaultCode.code)

/-- The integrator's step and skipped counts. -/
def State.putInteg (s : State) (v : Fin 12) : ResultBytes :=
  match s.integ v with
  | some g => putNat 2 g.steps ++ putNat 2 g.skipped
  | none => []

/-- VESSEL READ of a steep (R60). A stopped timer is sent as an absent field, and the wait timer's time left and its purpose
stand behind one flag byte (DESIGN CHOICE, assumption 88); the phase timer outside AUTO is sent as stopped (DESIGN CHOICE,
assumption 52), and a timer that stands in AUTO as its time left (DESIGN CHOICE, assumption 102). Whether the CO2 override holds the fan is sent as a flag, 1 where it does (DESIGN CHOICE, assumption 98). -/
def State.putSteep (s : State) (i : Fin 4) : ResultBytes :=
  let v := steepNo i
  let x := s.steep i
  (s.vessel v).putMode ++ putNat 1 x.phase.code ++ putNat 1 x.index ++
    putOptNat 4 (if s.steepMode i = .auto then x.phaseTimer else none) ++
    putOpt 5 (x.wait.map fun w => putNat 4 w.2 ++ putNat 1 w.1.code) ++ putOptNat 2 (s.batchIdAt v) ++ putFlag x.co2Hold ++
    (s.vessel v).putWatch

def Demand.put (d : Demand) : ResultBytes :=
  putNat 1 d.kind.code ++ putNat 4 d.time ++ putOptNat 1 (d.turner.map (·.val))

/-- VESSEL READ of a compartment (R88). A stopped timer is sent as an absent field, and the demand with its kind, its time
and its turner stands behind one flag byte (DESIGN CHOICE, assumption 88); a timer that stands is sent as its time left
(DESIGN CHOICE, assumption 102). -/
def State.putComp (s : State) (c : Fin 6) : ResultBytes :=
  let v := compNo c
  let x := s.comp c
  (s.vessel v).putMode ++ putNat 1 x.phase.code ++ putNat 1 x.index ++ putOptNat 4 x.stageTimer ++ putOptNat 4 x.interval ++
    putOpt 7 (x.demand.map Demand.put) ++ putNat 1 x.faults ++ putOptNat 2 (s.batchIdAt v) ++ s.putInteg v ++
    (s.vessel v).putWatch

/-- VESSEL READ of a kiln (R116). A stopped timer is sent as an absent field, and the step timer's direction and its time
left stand behind one flag byte (DESIGN CHOICE, assumption 88). The peat gate is sent as a flag, 1 for open and 0 for shut
(DESIGN CHOICE, assumption 98), and a cool timer that stands as its time left (DESIGN CHOICE, assumption 102). -/
def State.putKiln (s : State) (k : Fin 2) : ResultBytes :=
  let v := kilnNo k
  let x := s.kiln k
  (s.vessel v).putMode ++ putNat 1 x.phase.code ++ putNat 1 x.index ++ putFlag x.limitEnded ++ putNat 4 x.firing ++
    putOptNat 4 x.cool ++ putNat 1 x.grant ++ putNat 1 x.cap ++ putNat 1 (s.capTarget k) ++ putNat 1 x.thermal.code ++
    putOpt 3 (x.step.map fun d => putNat 1 d.1.code ++ putNat 2 d.2) ++ putList x.ring (putInt 3) ++ putNat 2 x.streak ++
    putFlag x.declared ++ putFlag x.gate ++ putOptNat 4 x.peatTime ++ putOptInt 3 x.burner ++ putOptInt 3 x.peat ++
    putOptNat 2 (s.batchIdAt v) ++ s.putInteg v ++ (s.vessel v).putWatch

def State.readVessel (s : State) (v : Fin 12) : ResultBytes :=
  match vesselIs v with
  | .steep i => s.putSteep i
  | .comp c => s.putComp c
  | .kiln k => s.putKiln k

/-! ## Turners (Table 4-6) -/

/-- The turner record of Table 4-6. The marker state is sent as a flag, 1 for active and 0 for inactive (DESIGN CHOICE,
assumption 92); the pass length is sent as it is held (DESIGN CHOICE, assumption 52), and a stopped move or pass timer as an
absent field (DESIGN CHOICE, assumption 88). -/
def Turner.put (x : Turner) : ResultBytes :=
  putNat 1 x.state.code ++ putOptNat 1 x.position ++ putOptNat 1 x.target ++ putNat 2 x.pass ++ putNat 2 x.passLength ++
    putFlag x.marker ++ putOptNat 1 (x.assigned.map fun c => (compNo c).val) ++ putOptNat 1 (x.cause.map TurnerCause.code) ++
    putOptNat 2 x.moveTimer ++ putOptNat 3 x.passTimer ++ putNat 2 x.clamps ++ putNat 2 x.ambiguous ++ putNat 2 x.slips

/-! ## The transfer run (R134) -/

/-- SEQUENCER 0 and PLANT 1, in the order of R117. -/
def putFrom (plant : Bool) : ResultBytes := putNat 1 (if plant then 1 else 0)

def TransferReq.put (r : TransferReq) : ResultBytes :=
  putNat 1 r.kind.code ++ putNat 1 r.source.val ++ putOptNat 1 (r.dest.map (·.val)) ++ putFrom r.fromPlant ++ putNat 4 r.time

/-- A route step with its confirmation, 0 for outstanding and 1 for confirmed (Table 6-3). -/
def RouteLeg.put (l : RouteLeg) : ResultBytes := l.step.put ++ putFlag l.confirmed

/-- The outstanding draw (Table 6-3); LATE or not, and whether the confirmation and the report have arrived, are sent as flags,
1 for LATE and for arrived (DESIGN CHOICE, assumption 98). -/
def DrawOut.put (o : DrawOut) : ResultBytes :=
  putNat 1 o.index ++ putFlag o.late ++ putNat 4 o.massAt ++ putOptInt 3 o.sampleAt ++ putFlag o.confirmed ++
    putFlag o.report.isSome

/-- The record of Table 6-3. R134 gives each running timer's time left and no layout for a stopped one: each of the four
timers has its place, and a stopped one is sent as an absent field; the outstanding draw stands behind one flag byte (DESIGN
CHOICE, assumption 88). -/
def Running.put (r : Running) : ResultBytes :=
  putNat 1 r.kind.code ++ putNat 1 r.source.val ++ putNat 1 r.dest.val ++ putFrom r.fromPlant ++ putNat 2 r.batchId ++
    putNat 1 r.state.code ++ putNat 4 r.start ++ putList r.route RouteLeg.put ++ putNat 4 r.expected ++ putInt 3 r.base ++
    putNat 4 r.mass ++ putList r.points (putNat 4) ++ putNat 1 r.next ++ putOpt 12 (r.out.map DrawOut.put) ++
    putNat 1 r.left ++ putOptNat 2 r.routeTimer ++ putOptNat 2 r.noFlow ++ putOptNat 2 r.runOn ++ putOptNat 2 r.draw ++
    putOptNat 1 (r.cause.map AbortCause.code)

/-- TRANSFER READ (R134): the request list, and the record of the running transfer after a flag byte. With no transfer running
the record is the flag byte 1 alone, with no bytes for its fields (DESIGN CHOICE, assumption 73). -/
def State.readTransfer (s : State) : ResultBytes :=
  putList s.transfer.requests TransferReq.put ++ putEntry Running.put s.transfer.running

/-! ## The excise unit (R146) -/

/-- The pending RESTART mark. Table 11-11 does not list the restart causes, so a reply codes one by its place in Table 7-4,
counted from 0 (R182); a register entry carries the code that Table 7-4 gives. -/
def RestartMark.put (m : RestartMark) : ResultBytes := putNat 1 (placeOf RestartCause.all m.cause) ++ putNat 4 m.openNo ++ putNat 1 m.further

/-- EXCISE READ STATUS (R146). A stopped lockout or idle timer is sent as an absent field, and the pending RESTART mark stands
behind one flag byte (DESIGN CHOICE, assumption 88); an idle timer that stands is sent as its time left (DESIGN CHOICE,
assumption 102); whether the unit is in STORE_FAULT is sent as a flag, 1 where it is
(DESIGN CHOICE, assumption 98). -/
def State.readExcise (s : State) : ResultBytes :=
  let e := s.excise
  putNat 4 e.now.next ++ putNat 4 e.now.exported ++ putNat 2 e.free ++ putNat 1 e.now.reservation ++ putNat 2 e.avail ++
    putNat 4 e.now.chain.toNat ++ putNat 4 e.now.openNo ++ putOpt 6 (e.now.restart.map RestartMark.put) ++
    putOptNat 1 (e.pendingLock.map RelockCause.code) ++ putNat 1 e.lock.code ++ putNat 1 e.failed ++ putOptNat 2 e.lockout ++
    putOptNat 2 e.idle ++ putFlag e.storeFault

/-! ## The part (R186, R187) -/

/-- The part status word (Table 11-6). The day and the second of plant time stand behind one flag byte and are absent together
(DESIGN CHOICE, assumption 88). -/
def State.readStatus (s : State) : ResultBytes :=
  putNat 4 s.clock.process ++ putOpt 5 (s.clock.plant.map fun p => putNat 2 p.day ++ putNat 3 p.second) ++
    putFlag s.trunk.lost ++ putNat 1 s.excise.lock.code ++ putFlag s.excise.storeFault ++
    putOptNat 1 (s.runState.map TransferState.code) ++ putNat 1 s.faultedVessels ++ putNat 1 s.notices.queue.length ++
    putNat 2 s.notices.marks.length

/-- The three counts of a turner. -/
def Turner.putCounts (x : Turner) : ResultBytes := putNat 2 x.clamps ++ putNat 2 x.ambiguous ++ putNat 2 x.slips

/-- Every count of Table 11-7 in its order, and then the lengths and the cycle number. The waiting list has no bound, and its
length takes 2 bytes (DESIGN CHOICE, assumption 51). -/
def State.readCounters (s : State) : ResultBytes :=
  putNat 4 s.intake.unmapped ++ (s.turner 0).putCounts ++ (s.turner 1).putCounts ++ putNat 2 s.filter.refused ++
    putNat 2 s.filter.stray ++ putNat 2 s.trunk.checkErrors ++ putNat 2 s.trunk.lengthErrors ++ putNat 2 s.trunk.notTaken ++
    putNat 2 s.field.checkErrors ++ putNat 2 s.field.lengthErrors ++ putNat 2 s.trunk.drops ++ putNat 2 s.trunk.refusalLoss ++
    putNat 2 s.field.overruns ++ putNat 2 s.field.unexpected ++ putNat 2 s.field.late ++ putNat 2 s.field.lost ++
    putNat 2 s.mgmt.unknown ++ putNat 1 s.trunk.up.length ++ putNat 1 s.filter.queue.length ++
    putNat 1 s.filter.plantCount ++ putNat 2 s.filter.waiting.length ++ putNat 1 s.notices.queue.length ++
    putNat 4 s.field.cycle

/-- Every count of Table 11-7 becomes 0 (R187). -/
def State.clearCounts (s : State) : State :=
  let s1 := s.onIntake fun i => { i with unmapped := 0 }
  let s2 := allTurners.foldl (fun s t => s.onTurner t fun x => { x with clamps := 0, ambiguous := 0, slips := 0 }) s1
  let s3 := s2.onFilter fun f => { f with refused := 0, stray := 0 }
  let s4 := s3.onTrunk fun t => { t with checkErrors := 0, lengthErrors := 0, notTaken := 0, drops := 0, refusalLoss := 0 }
  let s5 := s4.onField fun f => { f with
    checkErrors := 0, lengthErrors := 0, overruns := 0, unexpected := 0, late := 0, lost := 0 }
  s5.onMgmt fun m => { m with unknown := 0 }

end Sys2Proof.Machine
end

