-- ==== Sys2Proof/Machine/Manage.lean ====
section
/-! DEFINITION. Machine/Manage.lean: the management unit (chapter 11): the taking of a request, and what each request of
Table 11-3 does and answers. -/

namespace Sys2Proof.Machine

/-- What a request does: for its originator and its telegram, the state after it and its answer; no answer for a long
request, which has then been begun. -/
abbrev Handler := Originator → Request → State → State × Option Answered

/-! ## Forms of handlers -/

/-- An answer that changes nothing. -/
def State.says (s : State) (st : Status) : State × Option Answered := (s, some (.of st))

/-- A request done at once. -/
def State.done (s : State) : State × Option Answered := (s, some (.of .ok))

/-- A refusal for space posts the EXCISE notice FULL (R141). The notice is posted before the reply EXCISE_FULL is formed, so
that an idle transmitter takes it before the reply (DESIGN CHOICE, assumption 55). -/
def State.full (s : State) : State × Option Answered := (s.postFull, some (.of .exciseFull))

/-- A long request is in progress at its originator (R183). -/
def State.beginLong (s : State) (o : Originator) (r : Request) (cls code : Nat) : State :=
  let p : InProgress := { src := r.src.toNat, seq := r.seq.toNat, cls, code }
  s.onMgmt fun m => match o with
    | .plant => { m with plant := some p }
    | .excise => { m with excise := some p }

/-! ## TABLE (R147, R184) -/

/-- The rights over WRITE ENTRY, COMMIT and DISCARD of a table; OK where they are given. -/
def State.tableRight (s : State) (o : Originator) (id : Nat) : Status :=
  if exciseTable id then
    if o ≠ .excise then .notPermitted else if s.excise.lock ≠ .unlocked then .locked else .ok
  else if o ≠ .plant then .notPermitted
  else .ok

def tableWrite : Handler := fun o r s =>
  match r.args with
  | id :: i :: body =>
    match entriesOf id.toNat with
    | some n =>
      let right := s.tableRight o id.toNat
      if right ≠ .ok then s.says right
      else if n ≤ i.toNat then s.says .badArgument
      else if exciseTable id.toNat then
        match s.excise.staged.write id.toNat i.toNat body with
        | some t => (s.onExcise fun e => { e with staged := t }).done
        | none => s.says .badArgument
      else match s.staged.write id.toNat i.toNat body with
        | some t => (s.onStaged fun _ => t).done
        | none => s.says .badArgument
    | none => s.says .badArgument
  | _ => s.says .badArgument

/-- TABLE COMMIT (R147, R184). A table id outside Table 11-4 is answered BAD_ARGUMENT, before the originator's rights are looked
at (DESIGN CHOICE, assumption 104). -/
def tableCommit : Handler := fun o r s =>
  match r.args with
  | [id] =>
    match entriesOf id.toNat with
    | some _ =>
      let right := s.tableRight o id.toNat
      if right ≠ .ok then s.says right
      else if exciseTable id.toNat then
        match s.commitExciseOk id.toNat with
        | .ok => ((s.beginLong o r 1 2).commitExcise id.toNat, none)
        | .exciseFull => s.full
        | st => s.says st
      else match s.commitOk id.toNat with
        | .ok => (s.commitTable id.toNat).done
        | st => s.says st
    | none => s.says .badArgument
  | _ => s.says .badArgument

/-- TABLE DISCARD (R147, R184). A table id outside Table 11-4 is answered BAD_ARGUMENT, before the originator's rights are
looked at (DESIGN CHOICE, assumption 104). -/
def tableDiscard : Handler := fun o r s =>
  match r.args with
  | [id] =>
    match entriesOf id.toNat with
    | some _ =>
      let right := s.tableRight o id.toNat
      if right ≠ .ok then s.says right
      else if exciseTable id.toNat then
        (s.onExcise fun e => { e with staged := e.staged.take e.now.tables id.toNat }).done
      else (s.onStaged fun t => t.take s.tables id.toNat).done
    | none => s.says .badArgument
  | _ => s.says .badArgument

/-- TABLE READ: table, entry, selector, part; the selector is 0 for the staged and 1 for the committed copy, and any other
is answered BAD_ARGUMENT (DESIGN CHOICE, assumption 49). So is a table id outside Table 11-4, and an entry index beyond its
table (DESIGN CHOICE, assumption 104). -/
def tableRead : Handler := fun _ r s =>
  match r.args with
  | [id, i, sel, part] =>
    match entriesOf id.toNat with
    | some n =>
      if id.toNat = idSeed ∨ id.toNat = idCode then s.says .notPermitted
      else if n ≤ i.toNat ∨ 1 < sel.toNat then s.says .badArgument
      else (s, some (partAnswer (s.readTable id.toNat i.toNat (decide (sel.toNat = 1))) part.toNat))
    | none => s.says .badArgument
  | _ => s.says .badArgument

/-! ## BATCH (R5, R6, R18 to R21) -/

/-- The record with a batch id, and its slot. -/
def State.batchOf (s : State) (id : Nat) : Option (Nat × Batch) := s.batch.slots.find? fun e => e.2.id = id

/-- The lowest-numbered free slot. -/
def State.freeSlot (s : State) : Option Nat := (List.range 16).find? fun n => (s.batch.slots.get n).isNone

/-- The fields of BATCH OPEN. -/
def readOpen : Reader Batch := fun bs => do
  let (id, r) ← readNat 2 1 65535 bs
  let (vessel, r) ← readNat 1 0 3 r
  let (steepProg, r) ← readNat 1 0 7 r
  let (germProg, r) ← readNat 1 0 7 r
  let (kilnProg, r) ← readNat 1 0 3 r
  let (m0, r) ← readNat 2 500 4000 r
  some ({ id, state := .opened, vessel, steepProg, germProg, kilnProg, m0 }, r)

/-- The steep that a batch's record names (Table 1-1). -/
def Batch.steepOf (b : Batch) : Option (Fin 4) := if h : b.vessel < 4 then some ⟨b.vessel, h⟩ else none

def batchOpen : Handler := fun o r s =>
  if r.args.length ≠ 8 then s.says .badArgument
  else if o ≠ .plant then s.says .notPermitted
  else match readAll readOpen r.args with
    | none => s.says .badArgument
    | some b =>
      if (s.batchOf b.id).isSome then s.says .badArgument
      else match s.freeSlot, b.steepOf with
        | some n, some i =>
          if (s.batchAt (steepNo i)).isSome ∨ s.steepMode i = .off then s.says .wrongState
          else (s.onBatch fun u => { u with slots := u.slots.put n b }, some { status := .ok, detail := n })
        | _, _ => s.says .noRoom

/-- A BATCH request that carries an id alone: from the plant controller, and for a record that exists. -/
def onBatchId (o : Originator) (r : Request) (s : State) (f : Nat → Batch → State × Option Answered) :
    State × Option Answered :=
  if r.args.length ≠ 2 then s.says .badArgument
  else if o ≠ .plant then s.says .notPermitted
  else match s.batchOf (ofBytes r.args) with
    | some (n, b) => f n b
    | none => s.says .badArgument

/-- The INTAKE entry (Table 7-3). -/
def intakeEntry (b : Batch) (a : Account) : Entry :=
  { number := 0, kind := kINTAKE, vessel := b.vessel, batch := b.id, quantity := a.intake, computed := a.dry }

/-- BATCH START STEEP is accepted with kg of grain (R6). -/
def State.startSteep (s : State) (n : Nat) (b : Batch) (i : Fin 4) (kg : Nat) : State :=
  let a := Account.intakeOf kg b.m0
  let s1 := (s.writeEntry (intakeEntry b a)).closeEvent false
  let s2 := s1.onSlot n fun b => { b with acct := some a, steepStart := some s.timeNow, state := .steeping }
  s2.steepHandover i

def batchStartSteep : Handler := fun o r s => onBatchId o r s fun n b =>
  match b.steepOf with
  | some i =>
    if b.state ≠ .opened ∨ s.steepMode i = .off then s.says .wrongState
    else match s.usableRole (.vessel (steepNo i)) .grainMass with
      | none => s.says .notReady
      | some kg =>
        if kg < 100 ∨ 50000 < kg then s.says .badArgument
        else if s.excise.avail < 1 then s.full
        else (s.startSteep n b i kg.toNat).done
  | none => s.says .wrongState

/-- The ABANDON entry (Table 7-3): both masses are 0 for an OPENED batch. -/
def abandonEntry (b : Batch) : Entry :=
  let e : Entry := { number := 0, kind := kABANDON, vessel := b.vessel, batch := b.id }
  match b.acct with
  | some a => { e with quantity := a.dry + a.water, computed := a.dry }
  | none => e

/-- OPENED, STEEPING, GERMINATING or KILNING (R18). -/
def BatchState.abandonable : BatchState → Bool
  | .opened | .steeping | .germinating | .kilning => true
  | _ => false

/-- BATCH ABANDON is accepted (R18). -/
def State.abandon (s : State) (n : Nat) (b : Batch) (v : Fin 12) : State :=
  let s1 := (s.writeEntry (abandonEntry b)).closeEvent false
  ((s1.abandonVessel v).onSlot n fun b => { b with state := .abandoned }).emit .scan

/-- BATCH ABANDON (R18). Any turner whose assigned compartment is the vessel bars it, a turner in FAULT that keeps its
compartment (R81) too: the check names assignment, and of its states only moving there and the pass (DESIGN CHOICE,
assumption 62). -/
def batchAbandon : Handler := fun o r s => onBatchId o r s fun n b =>
  match vesselOf b.vessel with
  | some v =>
    if !b.state.abandonable ∨ allTurners.any (fun t => (s.turner t).assigned.any fun c => compNo c = v) then
      s.says .wrongState
    else if s.excise.avail < 1 then s.full
    else (s.abandon n b v).done
  | none => s.says .wrongState

def batchRelease : Handler := fun o r s => onBatchId o r s fun n b =>
  if b.state = .done ∨ b.state = .abandoned then
    (s.onBatch fun u => { u with slots := u.slots.del n }).done
  else s.says .wrongState

/-- BATCH READ by id: id, selector 0, part; by slot: slot, selector 1, part. A selector byte that is not the one of its form
is answered BAD_ARGUMENT (R20 and R182 give no status for it; all DESIGN CHOICE, assumption 14). -/
def batchRead : Handler := fun _ r s =>
  match r.args with
  | [h, l, sel, part] =>
    if sel ≠ 0 then s.says .badArgument
    else match s.batchOf (ofBytes [h, l]) with
      | some (_, b) => (s, some (partAnswer b.put part.toNat))
      | none => s.says .badArgument
  | [slot, sel, part] =>
    if sel ≠ 1 ∨ 15 < slot.toNat then s.says .badArgument
    else match s.batch.slots.get slot.toNat with
      | some b => (s, some (partAnswer b.put part.toNat))
      | none => s.done
  | _ => s.says .badArgument

/-! ## VESSEL (R44, R45, R104) -/

/-- The vessels of a class, STEEP 0, COMPARTMENT 1 or KILN 2. -/
def vesselsOf (n : Nat) : Option (List (Fin 12)) :=
  match n with
  | 0 => some [0, 1, 2, 3]
  | 1 => some [4, 5, 6, 7, 8, 9]
  | 2 => some [10, 11]
  | _ => none

/-- The state checks of a vessel for a mode (R44). -/
def State.modeOk (s : State) (v : Fin 12) (m : Mode) : Status :=
  if m = .off then (if s.boundVessel v then .wrongState else .ok) else if s.hasEntry v then .ok else .notReady

def setModeOne (s : State) (v : Fin 12) (m : Mode) : State × Option Answered :=
  match s.modeOk v m with
  | .ok => (s.applyMode v m).done
  | st => s.says st

/-- Every vessel of the class is checked before any is changed; the detail is the lowest-numbered failing vessel. -/
def setModeAll (s : State) (vs : List (Fin 12)) (m : Mode) : State × Option Answered :=
  match vs.find? fun v => s.modeOk v m ≠ .ok with
  | some v => (s, some { status := s.modeOk v m, detail := v.val })
  | none => (vs.foldl (fun s v => s.applyMode v m) s).done

def vesselSetMode : Handler := fun o r s =>
  match r.args with
  | [v, m] =>
    if o ≠ .plant then s.says .notPermitted
    else match vesselOf v.toNat, nameAt Mode.all m.toNat with
      | some v, some m => setModeOne s v m
      | _, _ => s.says .badArgument
  | [v, c, m] =>
    if v.toNat ≠ 255 then s.says .badArgument
    else if o ≠ .plant then s.says .notPermitted
    else match vesselsOf c.toNat, nameAt Mode.all m.toNat with
      | some vs, some m => setModeAll s vs m
      | _, _ => s.says .badArgument
  | _ => s.says .badArgument

/-- The kiln that a vessel number 10..11 names. -/
def kilnOf (n : Nat) : Option (Fin 2) := if 10 ≤ n then twoOf (n - 10) else none

def vesselSetGrant : Handler := fun o r s =>
  match r.args with
  | [v, g] =>
    if o ≠ .plant then s.says .notPermitted
    else match kilnOf v.toNat with
      | some k =>
        let x := s.kiln k
        if 8 < g.toNat then s.says .badArgument
        else if s.kilnMode k ≠ .manual ∨ (x.phase ≠ .waitHeat ∧ x.phase ≠ .firing) then s.says .wrongState
        else if x.index = 255 then s.says .notReady
        else if s.budget - (s.kiln (other k)).grant < g.toNat then s.says .noRoom
        else (s.changeGrant k g.toNat).done
      | none => s.says .badArgument
  | _ => s.says .badArgument

def vesselRead : Handler := fun _ r s =>
  match r.args with
  | [v, part] =>
    match vesselOf v.toNat with
    | some v => (s, some (partAnswer (s.readVessel v) part.toNat))
    | none => s.says .badArgument
  | _ => s.says .badArgument

/-! ## TURNER (R85 to R88) -/

/-- Both turner entries, and for each turner its two MPs (R85). -/
def State.canHome (s : State) : Bool :=
  allTurners.all fun t =>
    (s.turnerCfg t).isSome && (s.mpOf (.turner t) .turnerEncoder).isSome && (s.mpOf (.turner t) .turnerState).isSome

/-- A turner that bars TURNER HOME: any but UNHOMED and IDLE. -/
def TurnerState.barsHoming : TurnerState → Bool
  | .unhomed | .idle => false
  | .homing | .moving | .passOut | .passBack | .fault => true

/-- Both turners begin to home (R85). R85 does not order them: both enter HOMING with their notices, turner 0 first, and then
each is offered its MOVE_TO, turner 0 first (DESIGN CHOICE, assumption 99). -/
def State.homeTurners (s : State) : State :=
  let s1 := allTurners.foldl (fun s t => s.turnerTo t fun x => { x with
    state := .homing, position := none, target := some (park t), moveAccepted := false }) s
  allTurners.foldl (fun s t => s.moveTo t (park t)) s1

def turnerHome : Handler := fun o r s =>
  if r.args ≠ [] then s.says .badArgument
  else if o ≠ .plant then s.says .notPermitted
  else if !s.canHome then s.says .notReady
  else if allTurners.any (fun t => (s.turner t).state.barsHoming) then s.says .wrongState
  else ((s.beginLong o r 4 1).homeTurners, none)

/-- The position that a turner in FAULT has last reported at rest, since it entered FAULT. -/
def Turner.restAt (x : Turner) : Option Nat := x.faultReport.bind fun v => if 0 ≤ v ∧ v ≤ 7 then some v.toNat else none

def turnerClearReq : Handler := fun o r s =>
  match r.args with
  | [t] =>
    if o ≠ .plant then s.says .notPermitted
    else match twoOf t.toNat with
      | some t =>
        if (s.turner t).state ≠ .fault then s.says .wrongState
        else match (s.turner t).restAt with
          | some p => (s.turnerClear t p).done
          | none => s.says .notReady
      | none => s.says .badArgument
  | _ => s.says .badArgument

def turnerRead : Handler := fun _ r s =>
  match r.args with
  | [t, part] =>
    match twoOf t.toNat with
    | some t => (s, some (partAnswer (s.turner t).put part.toNat))
    | none => s.says .badArgument
  | _ => s.says .badArgument

/-! ## TRANSFER (R118, R130, R131, R134) -/

def readDest : Reader (Fin 13) := readFin 0 13 (by decide)

/-- The fields of TRANSFER REQUEST: kind, source, destination or none. -/
def readTransferReq : Reader (TransferKind × Fin 12 × Option (Fin 13)) := fun bs => do
  let (k, r) ← readName TransferKind.all bs
  let (v, r) ← readVessel r
  let (d, r) ← readOpt 1 readDest r
  if k.sends v ∧ d.all k.takes then some ((k, v, d), r) else none

def transferRequest : Handler := fun o r s =>
  if r.args.length ≠ 4 then s.says .badArgument
  else if o ≠ .plant then s.says .notPermitted
  else match readAll readTransferReq r.args with
    | none => s.says .badArgument
    | some (k, v, d) =>
      if !s.awaitsTransfer v ∨ s.hasRequest v then s.says .wrongState
      else
        let dest : Option (Fin 13) := if k = .strip then some (d.getD 12) else d
        (s.addRequest { kind := k, source := v, dest, fromPlant := true, time := s.timeNow }).done

def transferResume : Handler := fun o r s =>
  if r.args ≠ [] then s.says .badArgument
  else if o ≠ .plant then s.says .notPermitted
  else if s.runState ≠ some .stalled then s.says .wrongState
  else s.resumeRun.done

def transferAbort : Handler := fun o r s =>
  if r.args ≠ [] then s.says .badArgument
  else if o ≠ .plant then s.says .notPermitted
  else if s.transfer.running.isNone then s.says .wrongState
  else ((s.beginLong o r 5 3).abortRun .operator, none)

def transferRead : Handler := fun _ r s =>
  match r.args with
  | [part] => (s, some (partAnswer s.readTransfer part.toNat))
  | _ => s.says .badArgument

/-! ## EXCISE (R145, R146, R149, R150) -/

/-- 1800 s and 3600 s. -/
abbrev idleTenths : Nat := 18000
abbrev lockoutTenths : Nat := 36000

/-- EXCISE UNLOCK with the right code. -/
def State.unlock (s : State) (src : Nat) : State :=
  let s1 := s.onExcise fun e => { e with lock := .unlocked, failed := 0, idle := some idleTenths }
  ((s1.writeEntry { number := 0, kind := kUNLOCK, a1 := src }).closeEvent false).postExcise (LockState.code .unlocked) 0

/-- EXCISE UNLOCK with a wrong code. -/
def State.unlockFails (s : State) (src : Nat) : State × Option Answered :=
  let n := s.excise.failed + 1
  let s1 := ((s.onExcise fun e => { e with failed := n }).writeEntry
    { number := 0, kind := kREFUSED, quantity := n, a1 := src }).closeEvent false
  if n < 3 then (s1, some { status := .notPermitted, detail := n })
  else
    ((s1.onExcise fun e => { e with lock := .lockedOut, lockout := some lockoutTenths }).postExcise
      (LockState.code .lockedOut) 3).says .locked

def exciseUnlock : Handler := fun o r s =>
  if r.args.length ≠ 4 then s.says .badArgument
  else if o ≠ .excise then s.says .notPermitted
  else if s.excise.lock = .lockedOut then s.says .locked
  else if s.excise.lock = .unlocked then s.says .wrongState
  else if s.excise.avail < 1 then s.full
  else if ofBytes r.args = s.excise.now.tables.code then (s.unlock r.src.toNat).done
  else s.unlockFails r.src.toNat

def exciseLock : Handler := fun o r s =>
  if r.args ≠ [] then s.says .badArgument
  else if o ≠ .excise then s.says .notPermitted
  else if s.excise.lock = .unlocked then (s.relock .request).done
  else s.done

/-- Entry n may be read (R146). -/
def Excise.holds (e : Excise) (n : Nat) : Bool := 1 ≤ n && n < e.now.next && e.now.next ≤ n + 512

/-- EXCISE READ ENTRY answers the bytes of the number's slot (R146). After the entry 4,294,967,295 the slot of entry
4,294,966,783 holds that last entry's bytes, and they are what the older number is answered with (DESIGN CHOICE,
assumption 39). -/
def exciseReadEntry : Handler := fun _ r s =>
  if r.args.length ≠ 4 then s.says .badArgument
  else
    let n := ofBytes r.args
    if !s.excise.holds n then s.says .badArgument
    else
      let result : ResultBytes := match s.excise.slots.get (slotOf n) with
        | some e => e.bytes.map some
        | none => List.replicate 32 none
      (s, some { status := .ok, result })

/-- Exported-through becomes a; the pending marks are written, the copy closes the event, and the arbiter scans (R145). -/
def State.acknowledge (s : State) (a : Nat) : State :=
  let s1 := s.onExcise fun e => { e with now := { e.now with exported := a } }
  (s1.writeMarks.closeLong).emit .scan

def exciseAcknowledge : Handler := fun o r s =>
  if r.args.length ≠ 4 then s.says .badArgument
  else if o ≠ .excise then s.says .notPermitted
  else if s.excise.storeFault then s.says .notReady
  else
    let a := ofBytes r.args
    if a < s.excise.now.exported ∨ s.excise.now.next ≤ a then s.says .badArgument
    else ((s.beginLong o r 6 4).acknowledge a, none)

def exciseReadStatus : Handler := fun _ r s =>
  if r.args ≠ [] then s.says .badArgument else (s, some { status := .ok, result := s.readExcise })

/-! ## PART (R185 to R188) -/

def partReadStatus : Handler := fun _ r s =>
  if r.args ≠ [] then s.says .badArgument else (s, some { status := .ok, result := s.readStatus })

/-- The fields of PART SET PLANT TIME. -/
def readPlantTime : Reader PlantTime := fun bs => do
  let (day, r) ← readNat 2 0 65535 bs
  let (second, r) ← readNat 3 0 86399 r
  some ({ day, second }, r)

def partSetPlantTime : Handler := fun o r s =>
  if r.args.length ≠ 5 then s.says .badArgument
  else if o ≠ .plant then s.says .notPermitted
  else match readAll readPlantTime r.args with
    | some p => (s.onClock fun c => { c with plant := some p }).done
    | none => s.says .badArgument

def partReadCounters : Handler := fun _ r s =>
  match r.args with
  | [part] => (s, some (partAnswer s.readCounters part.toNat))
  | _ => s.says .badArgument

def partClearCounters : Handler := fun o r s =>
  if r.args ≠ [] then s.says .badArgument
  else if o ≠ .plant then s.says .notPermitted
  else s.clearCounts.done

/-- PART RESET: its reply is formed at the taking, and no more requests are taken (R188). -/
def partReset : Handler := fun o r s =>
  if r.args ≠ [] then s.says .badArgument
  else if o ≠ .plant then s.says .notPermitted
  else
    (((s.beginLong o r 7 5).onMgmt fun m => { m with stopped := true }).formReply r.src.toNat r.seq.toNat 7 5 .ok 0 [] true,
      none)

/-! ## Table 11-3 -/

/-- The request that a class and a code name. -/
def handlerOf (cls code : Nat) : Option Handler :=
  match cls, code with
  | 1, 1 => some tableWrite
  | 1, 2 => some tableCommit
  | 1, 3 => some tableDiscard
  | 1, 4 => some tableRead
  | 2, 1 => some batchOpen
  | 2, 2 => some batchStartSteep
  | 2, 3 => some batchAbandon
  | 2, 4 => some batchRelease
  | 2, 5 => some batchRead
  | 3, 1 => some vesselSetMode
  | 3, 2 => some vesselSetGrant
  | 3, 3 => some vesselRead
  | 4, 1 => some turnerHome
  | 4, 2 => some turnerClearReq
  | 4, 3 => some turnerRead
  | 5, 1 => some transferRequest
  | 5, 2 => some transferResume
  | 5, 3 => some transferAbort
  | 5, 4 => some transferRead
  | 6, 1 => some exciseUnlock
  | 6, 2 => some exciseLock
  | 6, 3 => some exciseReadEntry
  | 6, 4 => some exciseAcknowledge
  | 6, 5 => some exciseReadStatus
  | 7, 1 => some partReadStatus
  | 7, 2 => some partSetPlantTime
  | 7, 3 => some partReadCounters
  | 7, 4 => some partClearCounters
  | 7, 5 => some partReset
  | _, _ => none

/-- A request that names none of them (R182). -/
def unknownReq : Handler := fun _ _ s => s.says .unknownRequest

/-! ## Taking a request (R168, R183) -/

/-- The originator that a source address makes (R183). An address that is both the plant controller's and the excise
terminal's makes the plant controller (DESIGN CHOICE, assumption 86). -/
def State.originatorOf (s : State) (src : Nat) : Option Originator :=
  if src = s.plantAddr then some .plant else if src = s.terminalAddr then some .excise else none

/-- The request that an originator has in progress. -/
def State.inProgress (s : State) (o : Originator) : Option InProgress :=
  match o with
  | .plant => s.mgmt.plant
  | .excise => s.mgmt.excise

/-- Each request of the excise terminal reloads the idle timer while the lock is UNLOCKED (R150). It is reloaded when the
request is taken, before the request is executed, so that EXCISE READ STATUS of that terminal shows the time just loaded
(DEDUCED, assumption 74). -/
def State.touchIdle (s : State) (o : Originator) : State :=
  if o = .excise ∧ s.excise.lock = .unlocked then s.onExcise fun e => { e with idle := some idleTenths } else s

/-- A request is executed, and answered where it is done. -/
def State.execute (s : State) (o : Originator) (cls code : Nat) (h : Handler) (r : Request) : State :=
  let p := h o r s
  match p.2 with
  | some a => p.1.formReply r.src.toNat r.seq.toNat cls code a.status a.detail a.result false
  | none => p.1

/-- A MGMT_REQUEST addressed to the part, with its class and code, is taken (R168, R183, R188). The idle timer is reloaded
first (assumption 74). -/
def State.takeRequest (s : State) (cls code : Nat) (h : Handler) (r : Request) : State :=
  if s.mgmt.stopped ∨ 4 ≤ s.trunk.placesUsed then s.onTrunk fun t => { t with notTaken := satAdd max16 t.notTaken 1 }
  else match s.originatorOf r.src.toNat with
    | none => s.onMgmt fun m => { m with unknown := satAdd max16 m.unknown 1 }
    | some o =>
      let s1 := (s.onTrunk fun t => { t with held := t.held + 1 }).touchIdle o
      match s1.inProgress o with
      | some p =>
        s1.formReply r.src.toNat r.seq.toNat cls code .busy 0 (putNat 1 p.cls ++ putNat 1 p.code) false
      | none => s1.execute o cls code h r

end Sys2Proof.Machine
end

