-- ==== Sys2Proof/Machine/Port.lean ====
section
/-! DEFINITION. Machine/Port.lean: what arrives on the trunk link (R168, R170, R173), the end of a telegram sent (R172,
R188), the writes of the store (R136), and the expiries of the trunk's and the lock's timers (R149, R150, R173). -/

namespace Sys2Proof.Machine

/-! ## Trunk silence (R173) -/

/-- The STATION notice of the trunk: source class TRUNK, index the plant controller's address. -/
def State.postTrunk (s : State) (up : Bool) : State := s.post .station .trunk s.plantAddr (if up then 1 else 0) 0

/-- A telegram of the plant controller reloads the timer, and restores a lost trunk; the scan it prompts is made before
the telegram is sorted (DESIGN CHOICE, assumption 22). -/
def State.heard (s : State) (src : Nat) : State :=
  if src ≠ s.plantAddr then s
  else
    let s1 := s.onTrunk fun t => { t with silence := some s.silenceTenths, lost := false }
    if s.trunk.lost then ((s1.postTrunk true).emit .scan).settle else s1

/-- The silence timer expires. -/
def State.silenceExpires (s : State) : State :=
  if s.trunk.silence = some 0 then (s.onTrunk fun t => { t with silence := none, lost := true }).postTrunk false else s

/-! ## Sorting (R168) -/

/-- A telegram discarded for its length, kind or layout. -/
def State.trunkBad (s : State) : State := s.onTrunk fun t => { t with lengthErrors := satAdd max16 t.lengthErrors 1 }

/-- A MGMT_REQUEST's payload, which names its request (R182); class and code are 0 where it carries none. -/
def State.takePayload (s : State) (src seq : Byte) (payload : List Byte) : State :=
  match payload with
  | c :: d :: args =>
    s.takeRequest c.toNat d.toNat ((handlerOf c.toNat d.toNat).getD unknownReq) { src, seq, args }
  | [c] => s.takeRequest c.toNat 0 unknownReq { src, seq, args := [] }
  | [] => s.takeRequest 0 0 unknownReq { src, seq, args := [] }

/-- A MGMT_REQUEST to the part as it arrives, for one class and code: a payload above 48 bytes is no telegram (R165). -/
def State.requestArrives (s : State) (cls code : Nat) (h : Handler) (r : Request) : State :=
  if 46 < r.args.length then s.trunkBad else (s.heard r.src.toNat).takeRequest cls code h r

/-- A MGMT_REQUEST with its whole payload. -/
def State.payloadArrives (s : State) (src seq : Byte) (payload : List Byte) : State :=
  if 48 < payload.length then s.trunkBad else (s.heard src.toNat).takePayload src seq payload

/-! ## The relay (R170) -/

/-- A COMMAND to a field address: an offer of PLANT origin, or a refusal with ORIGIN. -/
def State.relay (s : State) (dst src code : Nat) (arg : Int) (tag : Nat) : State :=
  if src = s.plantAddr then s.offer { station := dst, code, arg, origin := .plant, answer := .plant tag }
  else s.refuse dst code tag .origin 0

/-- A well laid out COMMAND is sorted by its destination (Table 9-5). -/
def State.commandArrives (s : State) (dst src code : Nat) (arg : Int) (tag : Nat) : State :=
  let s1 := s.heard src
  if dst = s1.ownAddr then s1.trunkBad else if dst ≤ 63 then s1.relay dst src code arg tag else s1

/-- A telegram arrives on the trunk link, byte by byte as received (R168). -/
def State.trunkArrives (s : State) (bytes : List Byte) : State :=
  if checkPasses bytes then
    match frameOf bytes with
    | some f =>
      let s1 := s.heard f.src
      if f.dst = s1.ownAddr then
        if f.kind = tREQUEST then s1.takePayload (BitVec.ofNat 8 f.src) (BitVec.ofNat 8 f.seq) f.payload else s1.trunkBad
      else if f.dst ≤ 63 then
        if f.kind = tCOMMAND then
          match f.payload with
          | [code, a, b, c, d, tag] => s1.relay f.dst f.src code.toNat (ofBytesInt [a, b, c, d]) tag.toNat
          | _ => s1.trunkBad
        else s1.trunkBad
      else s1
    | none => s.trunkBad
  else s.onTrunk fun t => { t with checkErrors := satAdd max16 t.checkErrors 1 }

/-! ## Sending (R172, R188) -/

/-- The transmitter finishes a telegram, and the arbiter takes the next one. When the reply to PART RESET has been sent,
the commanded reset is due and nothing more is sent. -/
def State.sent (s : State) : State :=
  match s.trunk.tx with
  | some t =>
    let s1 := s.onTrunk fun u => { u with tx := none }
    match t.origin with
    | .reply true => s1.onMgmt fun m => { m with resetDue := true }
    | _ => s1.kick
  | none => s

/-! ## Store writes (R136) -/

/-- The oldest event's writes are complete: they are durable, and the reply that waited for them is formed. -/
def State.copyWritten (s : State) : State :=
  match s.excise.jobs with
  | j :: js =>
    let s1 := s.onExcise fun e => { e with nv := e.nv.writeJob j, jobs := js }
    if j.reply then s1.endLong .excise .ok 0 else s1
  | [] => s

/-- A write under way is not completed: a copy that failed is not good, a slot that failed is left as it was; the unit
enters STORE_FAULT. -/
def State.writeFails (s : State) (what : FailedWrite) : State :=
  match s.excise.jobs with
  | j :: _ =>
    let s1 := match what with
      | .slot => s
      | .copy => s.onExcise fun e =>
        let n := { e.nv with slots := putEntries e.nv.slots j.entries }
        { e with nv := n.putCopy { seq := n.nextSeq, good := false, counters := j.counters } }
    s1.enterStoreFault
  | [] => s

/-! ## The lock's timers (R149, R150) -/

def State.idleExpires (s : State) : State :=
  if s.excise.idle = some 0 ∧ s.excise.lock = .unlocked ∧ s.mgmt.excise.isNone then s.relock .idle else s

/-- The lockout's expiry (R149). It changes nothing in the store and writes no counters copy (DESIGN CHOICE, assumption 103). -/
def State.lockoutExpires (s : State) : State :=
  if s.excise.lockout = some 0 then
    (s.onExcise fun e => { e with lock := .locked, failed := 0, lockout := none }).postExcise (LockState.code .locked) 0
  else s

end Sys2Proof.Machine
end

