-- ==== Sys2Proof/Machine/Reset.lean ====
section
/-! DEFINITION. Machine/Reset.lean: what every reset leaves, and the start-up of the excise unit (R135, R136, R143, R144,
R188). -/

namespace Sys2Proof.Machine

/-! ## Recovery of the store (R135, R136) -/

/-- A store without a format mark is formatted: every slot cleared, the counters record at its format values (R135). That the
record stands in copy A with sequence number 0, with no copy B, and is durable at once is the model's (DESIGN CHOICE, assumption
40). -/
def NvStore.recover (n : NvStore) : NvStore :=
  if n.formatted then n
  else { formatted := true, copyA := some { seq := 0, good := true, counters := {} }, copyB := none, slots := [] }

/-- What the items read as where no copy is good: free values, each within its range (assumption 5). -/
def Counters.unreadable (draw : Nat) : Counters :=
  let u := Config.unreadableItem draw
  { next := 1 + u 1 % max32
    exported := u 2 % (1 + u 1 % max32)
    chain := BitVec.ofNat 32 (u 3)
    reservation := u 4 % 11
    openNo := u 5 % (max32 + 1)
    restart := if u 6 % 3 = 0 then none
      else some { cause := if u 6 % 3 = 1 then .power else .commanded, openNo := u 7 % (max32 + 1), further := u 8 % 256 }
    gen := u 9 % 65536
    tables :=
      { castDraws := u 10 % 9, loadDraws := u 11 % 9, stripDraws := u 12 % 9, tolerance := u 13 % 101
        seed := u 14 % 65536, terminal := 1 + u 15 % 255, code := u 16 % (max32 + 1) } }

/-- The entries below a copy's next entry number (R136). -/
def slotsBelow (t : Tbl Entry) (next : Nat) : Tbl Entry := t.filter fun e => decide (e.2.number < next)

/-- The excise unit right after the store has been read: LOCKED, no failed unlock, the timers stopped, the staged copies
equal to the committed ones (R144). -/
def Excise.startUp (n : NvStore) (draw : Nat) : Excise :=
  match n.best with
  | some c => { now := c.counters, slots := slotsBelow n.slots c.counters.next, nv := n, staged := c.counters.tables }
  | none =>
    let c := Counters.unreadable draw
    { storeFault := true, now := c, slots := slotsBelow n.slots c.next, nv := n, staged := c.tables }

/-! ## Start-up entries (R143, R144) -/

/-- The RESTART entry of a start-up: written, or a pending mark set or raised, with its notice FULL. -/
def State.restart (s : State) (cause : RestartCause) : State :=
  let c := s.excise.now
  match c.restart with
  | some m =>
    (s.onExcise fun e => { e with
      now := { e.now with restart := some { m with further := satAdd 255 m.further 1 } } }).postFull
  | none =>
    let m : RestartMark := { cause, openNo := c.openNo, further := 0 }
    if 1 ≤ s.excise.avail then s.writeEntry (restartEntry m)
    else (s.onExcise fun e => { e with now := { e.now with restart := some m } }).postFull

/-- The start-up of the excise unit, one event whole (R144). -/
def State.exciseStart (s : State) (cause : RestartCause) : State :=
  let s1 := if s.excise.storeFault then s.postExcise storeFaultCode 0 else s
  let s2 := (s1.restart cause).releaseEntries
  (s2.writeLock .reset).closeEvent false

/-- Every block in its reset state; the store, the waiting commands and the model's own count of draws stay. -/
def State.cleared (s : State) : State :=
  let n := s.excise.nv.recover
  { excise := Excise.startUp n s.draws
    draws := if n.best.isNone then s.draws + 1 else s.draws
    pending := s.pending }

/-- A reset: every block in its reset state, and then the start-up of the excise unit (R144, R188). -/
def State.startUp (s : State) (cause : RestartCause) : State := s.cleared.exciseStart cause

/-- The commanded reset, once its reply has been sent (R188). -/
def State.commandedReset (s : State) : State := if s.mgmt.resetDue then s.startUp .commanded else s

end Sys2Proof.Machine
end

