-- ==== Sys2Proof/Machine/ExecEvents.lean ====
section
/-! DEFINITION. Machine/ExecEvents.lean: the meanings of the resets, the time base and the timers, one for each command. The
expiry of a timer is taken where that timer is due, and has no effect where it no longer applies (assumption 15). -/

namespace Sys2Proof.Machine

/-- POWER_ON_RESET (R144): every block in its reset state, and the start-up of the excise unit with cause POWER. -/
def execPowerOnReset (s : State) : Host.Outcome State Fault Refusal := .next (s.startUp .power).settle

/-- COMMANDED_RESET (R188): due once the reply to PART RESET has been sent; the excise unit records COMMANDED. -/
def execCommandedReset (s : State) : Host.Outcome State Fault Refusal := .next (s.commandedReset).settle

/-- TIME_BASE_MARK (R176): a tenth of a second has passed, and a cycle starts, or the mark is held or lost. -/
def execTimeBaseMark (s : State) : Host.Outcome State Fault Refusal := .next (s.tick.mark).settle

/-- HELD_MARK_CYCLE_START (R176): the held mark starts its cycle, and the late-cycle count is raised. -/
def execHeldMarkCycleStart (s : State) : Host.Outcome State Fault Refusal := .next (s.heldCycle).settle

/-- WATCH_TIMER_EXPIRY (R40): the vessel becomes BLIND. -/
def execWatchTimerExpiry (v : Fin 12) (s : State) : Host.Outcome State Fault Refusal := .next (s.watchExpires v).settle

/-- STEEP_PHASE_TIMER_EXPIRY (R50 to R53): the phase ends, or a REST passes into WEIGHING. -/
def execSteepPhaseTimerExpiry (i : Fin 4) (s : State) : Host.Outcome State Fault Refusal := .next (s.steepPhaseExpires i).settle

/-- FILL_TIMEOUT (R51). -/
def execFillTimeout (i : Fin 4) (s : State) : Host.Outcome State Fault Refusal := .next (s.steepTimeout i .fill .fillTimeout).settle

/-- DRAIN_TIMEOUT (R52). -/
def execDrainTimeout (i : Fin 4) (s : State) : Host.Outcome State Fault Refusal := .next (s.steepTimeout i .drain .drainTimeout).settle

/-- WEIGH_SETTLE_END (R54): the weighing window opens. -/
def execWeighSettleEnd (i : Fin 4) (s : State) : Host.Outcome State Fault Refusal := .next (s.steepSettled i).settle

/-- WEIGH_WINDOW_EXPIRY (R54). -/
def execWeighWindowExpiry (i : Fin 4) (s : State) : Host.Outcome State Fault Refusal := .next (s.steepTimeout i .window .weighTimeout).settle

/-- STAGE_TIMER_EXPIRY (R66): the next stage, or READY. -/
def execStageTimerExpiry (c : Fin 6) (s : State) : Host.Outcome State Fault Refusal := .next (s.stageExpires c).settle

/-- INTERVAL_TIMER_EXPIRY (R71): a SCHEDULED demand. -/
def execIntervalTimerExpiry (c : Fin 6) (s : State) : Host.Outcome State Fault Refusal := .next (s.intervalExpires c).settle

/-- MOVE_TIMER_EXPIRY (R81): the turner faults with MOVE_TIMEOUT. -/
def execMoveTimerExpiry (t : Fin 2) (s : State) : Host.Outcome State Fault Refusal := .next (s.moveExpires t).settle

/-- PASS_TIMER_EXPIRY (R81): the turner faults with PASS_TIMEOUT. -/
def execPassTimerExpiry (t : Fin 2) (s : State) : Host.Outcome State Fault Refusal := .next (s.passExpires t).settle

/-- BREAK_POINT (R99, R100): a point of the break ring at a minute mark of the firing time. -/
def execBreakPoint (k : Fin 2) (s : State) : Host.Outcome State Fault Refusal := .next (s.takeBreakPoint k).settle

/-- FIRING_TIME_MINIMUM (R94, R95): the break point of that moment, and the end test. -/
def execFiringTimeMinimum (k : Fin 2) (s : State) : Host.Outcome State Fault Refusal := .next (s.kilnMinimum k).settle

/-- FIRING_TIME_MAXIMUM (R94, R96): the stage ends, by its condition or by limit. -/
def execFiringTimeMaximum (k : Fin 2) (s : State) : Host.Outcome State Fault Refusal := .next (s.kilnMaximum k).settle

/-- COOL_TIMER_EXPIRY (R97): READY_STRIP, and the STRIP request. -/
def execCoolTimerExpiry (k : Fin 2) (s : State) : Host.Outcome State Fault Refusal := .next (s.coolExpires k).settle

/-- STEP_TIMER_EXPIRY (R108): a step of the throttle cap. -/
def execStepTimerExpiry (k : Fin 2) (s : State) : Host.Outcome State Fault Refusal := .next (s.kilnStepExpires k).settle

/-- ROUTE_TIMER_EXPIRY (R124): an abort with cause ROUTE_TIMEOUT. -/
def execRouteTimerExpiry (s : State) : Host.Outcome State Fault Refusal := .next (s.routeExpires).settle

/-- NO_FLOW_TIMER_EXPIRY (R125): STALLED. -/
def execNoFlowTimerExpiry (s : State) : Host.Outcome State Fault Refusal := .next (s.noFlowExpires).settle

/-- RUN_ON_TIMER_EXPIRY (R128): DONE, once every draw has completed. -/
def execRunOnTimerExpiry (s : State) : Host.Outcome State Fault Refusal := .next (s.runOnExpires).settle

/-- DRAW_TIMER_EXPIRY (R127): an abort with cause DRAW_TIMEOUT. -/
def execDrawTimerExpiry (s : State) : Host.Outcome State Fault Refusal := .next (s.drawExpires).settle

/-- IDLE_TIMER_EXPIRY (R150): a relock with cause IDLE. -/
def execIdleTimerExpiry (s : State) : Host.Outcome State Fault Refusal := .next (s.idleExpires).settle

/-- LOCKOUT_TIMER_EXPIRY (R149): LOCKED again. -/
def execLockoutTimerExpiry (s : State) : Host.Outcome State Fault Refusal := .next (s.lockoutExpires).settle

/-- TRUNK_SILENCE_EXPIRY (R173): TRUNK_LOST. -/
def execTrunkSilenceExpiry (s : State) : Host.Outcome State Fault Refusal := .next (s.silenceExpires).settle

end Sys2Proof.Machine
end

