-- ==== Sys2Proof/Machine/ExecLinks.lean ====
section
/-! DEFINITION. Machine/ExecLinks.lean: the meanings of what the field line, the trunk link and the store bring, one for each command. -/

namespace Sys2Proof.Machine

/-- SAMPLE_TELEGRAM (R178): the answer to the present poll, or an unexpected answer. -/
def execSampleTelegram (src seq : Byte) (payload : List Byte) (s : State) : Host.Outcome State Fault Refusal := .next (s.sampleArrives src.toNat seq.toNat payload).settle

/-- FIELD_TELEGRAM_DISCARD (R169): a field telegram as its bytes arrived; what fails a test is discarded and counted. -/
def execFieldTelegramDiscard (bytes : List Byte) (s : State) : Host.Outcome State Fault Refusal := .next (s.fieldArrives bytes).settle

/-- CONFIRM_TELEGRAM (R161, R180): an in-flight command is settled, or the CONFIRM is stray. -/
def execConfirmTelegram (src tag : Byte) (accepted : Bool) (s : State) : Host.Outcome State Fault Refusal := .next (s.confirmArrives src.toNat tag.toNat accepted).settle

/-- RESPONSE_WINDOW_EXPIRY (R178, R179): a miss. -/
def execResponseWindowExpiry (s : State) : Host.Outcome State Fault Refusal := .next (s.pollExpires).settle

/-- COMMAND_WAIT_EXPIRY (R180): the next command is sent, or the window ends. -/
def execCommandWaitExpiry (s : State) : Host.Outcome State Fault Refusal := .next (s.commandExpires).settle

/-- COUNTERS_COPY_WRITTEN (R136): the oldest event is durable, and a waiting reply is formed. -/
def execCountersCopyWritten (s : State) : Host.Outcome State Fault Refusal := .next (s.copyWritten).settle

/-- STORE_WRITE_FAILURE (R136): STORE_FAULT. -/
def execStoreWriteFailure (what : FailedWrite) (s : State) : Host.Outcome State Fault Refusal := .next (s.writeFails what).settle

/-- TRANSMIT_COMPLETE (R172, R188): the arbiter takes the next telegram. -/
def execTransmitComplete (s : State) : Host.Outcome State Fault Refusal := .next (s.sent).settle

/-- TRUNK_TELEGRAM (R168): a trunk telegram as its bytes arrived is checked and sorted. -/
def execTrunkTelegram (bytes : List Byte) (s : State) : Host.Outcome State Fault Refusal := .next (s.trunkArrives bytes).settle

/-- TRUNK_COMMAND (R170): a relayed command of PLANT origin, or a refusal with ORIGIN. -/
def execTrunkCommand (dst src code : Byte) (arg : BitVec 32) (tag : Byte) (s : State) : Host.Outcome State Fault Refusal := .next (s.commandArrives dst.toNat src.toNat code.toNat arg.toInt tag.toNat).settle

/-- UNKNOWN_REQUEST (R182): answered UNKNOWN_REQUEST, and nothing is executed. -/
def execUnknownRequest (src seq : Byte) (payload : List Byte) (s : State) : Host.Outcome State Fault Refusal := .next (s.payloadArrives src seq payload).settle

end Sys2Proof.Machine
end

