-- ==== Sys2Proof/Machine/ExecRequests.lean ====
section
/-! DEFINITION. Machine/ExecRequests.lean: the meanings of the management requests, one for each request of Table 11-3. -/

namespace Sys2Proof.Machine

/-- TABLE WRITE ENTRY (R184): one entry of the staged copy. -/
def execTableWriteEntry (r : Request) (s : State) : Host.Outcome State Fault Refusal := .next (s.requestArrives 1 1 tableWrite r).settle

/-- TABLE COMMIT (R147, R184, Table 11-5). -/
def execTableCommit (r : Request) (s : State) : Host.Outcome State Fault Refusal := .next (s.requestArrives 1 2 tableCommit r).settle

/-- TABLE DISCARD (R184). -/
def execTableDiscard (r : Request) (s : State) : Host.Outcome State Fault Refusal := .next (s.requestArrives 1 3 tableDiscard r).settle

/-- TABLE READ (R42, R181, R184). -/
def execTableRead (r : Request) (s : State) : Host.Outcome State Fault Refusal := .next (s.requestArrives 1 4 tableRead r).settle

/-- BATCH OPEN (R5). -/
def execBatchOpen (r : Request) (s : State) : Host.Outcome State Fault Refusal := .next (s.requestArrives 2 1 batchOpen r).settle

/-- BATCH START STEEP (R6). -/
def execBatchStartSteep (r : Request) (s : State) : Host.Outcome State Fault Refusal := .next (s.requestArrives 2 2 batchStartSteep r).settle

/-- BATCH ABANDON (R18). -/
def execBatchAbandon (r : Request) (s : State) : Host.Outcome State Fault Refusal := .next (s.requestArrives 2 3 batchAbandon r).settle

/-- BATCH RELEASE (R19). -/
def execBatchRelease (r : Request) (s : State) : Host.Outcome State Fault Refusal := .next (s.requestArrives 2 4 batchRelease r).settle

/-- BATCH READ (R20). -/
def execBatchRead (r : Request) (s : State) : Host.Outcome State Fault Refusal := .next (s.requestArrives 2 5 batchRead r).settle

/-- VESSEL SET MODE (R44, R45). -/
def execVesselSetMode (r : Request) (s : State) : Host.Outcome State Fault Refusal := .next (s.requestArrives 3 1 vesselSetMode r).settle

/-- VESSEL SET GRANT (R104). -/
def execVesselSetGrant (r : Request) (s : State) : Host.Outcome State Fault Refusal := .next (s.requestArrives 3 2 vesselSetGrant r).settle

/-- VESSEL READ (R42, R60, R88, R116). -/
def execVesselRead (r : Request) (s : State) : Host.Outcome State Fault Refusal := .next (s.requestArrives 3 3 vesselRead r).settle

/-- TURNER HOME (R85). -/
def execTurnerHome (r : Request) (s : State) : Host.Outcome State Fault Refusal := .next (s.requestArrives 4 1 turnerHome r).settle

/-- TURNER CLEAR (R87). -/
def execTurnerClear (r : Request) (s : State) : Host.Outcome State Fault Refusal := .next (s.requestArrives 4 2 turnerClearReq r).settle

/-- TURNER READ (R88). -/
def execTurnerRead (r : Request) (s : State) : Host.Outcome State Fault Refusal := .next (s.requestArrives 4 3 turnerRead r).settle

/-- TRANSFER REQUEST (R118). -/
def execTransferRequest (r : Request) (s : State) : Host.Outcome State Fault Refusal := .next (s.requestArrives 5 1 transferRequest r).settle

/-- TRANSFER RESUME (R130). -/
def execTransferResume (r : Request) (s : State) : Host.Outcome State Fault Refusal := .next (s.requestArrives 5 2 transferResume r).settle

/-- TRANSFER ABORT (R131). -/
def execTransferAbort (r : Request) (s : State) : Host.Outcome State Fault Refusal := .next (s.requestArrives 5 3 transferAbort r).settle

/-- TRANSFER READ (R134). -/
def execTransferRead (r : Request) (s : State) : Host.Outcome State Fault Refusal := .next (s.requestArrives 5 4 transferRead r).settle

/-- EXCISE UNLOCK (R149). -/
def execExciseUnlock (r : Request) (s : State) : Host.Outcome State Fault Refusal := .next (s.requestArrives 6 1 exciseUnlock r).settle

/-- EXCISE LOCK (R150). -/
def execExciseLock (r : Request) (s : State) : Host.Outcome State Fault Refusal := .next (s.requestArrives 6 2 exciseLock r).settle

/-- EXCISE READ ENTRY (R146). -/
def execExciseReadEntry (r : Request) (s : State) : Host.Outcome State Fault Refusal := .next (s.requestArrives 6 3 exciseReadEntry r).settle

/-- EXCISE ACKNOWLEDGE EXPORT (R145). -/
def execExciseAcknowledgeExport (r : Request) (s : State) : Host.Outcome State Fault Refusal := .next (s.requestArrives 6 4 exciseAcknowledge r).settle

/-- EXCISE READ STATUS (R146). -/
def execExciseReadStatus (r : Request) (s : State) : Host.Outcome State Fault Refusal := .next (s.requestArrives 6 5 exciseReadStatus r).settle

/-- PART READ STATUS (R186). -/
def execPartReadStatus (r : Request) (s : State) : Host.Outcome State Fault Refusal := .next (s.requestArrives 7 1 partReadStatus r).settle

/-- PART SET PLANT TIME (R185). -/
def execPartSetPlantTime (r : Request) (s : State) : Host.Outcome State Fault Refusal := .next (s.requestArrives 7 2 partSetPlantTime r).settle

/-- PART READ COUNTERS (R187). -/
def execPartReadCounters (r : Request) (s : State) : Host.Outcome State Fault Refusal := .next (s.requestArrives 7 3 partReadCounters r).settle

/-- PART CLEAR COUNTERS (R187). -/
def execPartClearCounters (r : Request) (s : State) : Host.Outcome State Fault Refusal := .next (s.requestArrives 7 4 partClearCounters r).settle

/-- PART RESET (R188). -/
def execPartReset (r : Request) (s : State) : Host.Outcome State Fault Refusal := .next (s.requestArrives 7 5 partReset r).settle

end Sys2Proof.Machine
end

