-- ==== Sys2Proof/Machine/Dispatch.lean ====
section
/-! DEFINITION. Machine/Dispatch.lean: one arm for each command, one direct call of its meaning. -/

namespace Sys2Proof.Machine

def exec (i : Instr) (s : State) : Host.Outcome State Fault Refusal :=
  match i with
  | .powerOnReset => Sys2Proof.Machine.execPowerOnReset s
  | .commandedReset => Sys2Proof.Machine.execCommandedReset s
  | .timeBaseMark => Sys2Proof.Machine.execTimeBaseMark s
  | .heldMarkCycleStart => Sys2Proof.Machine.execHeldMarkCycleStart s
  | .sampleTelegram src seq payload => Sys2Proof.Machine.execSampleTelegram src seq payload s
  | .fieldTelegramDiscard bytes => Sys2Proof.Machine.execFieldTelegramDiscard bytes s
  | .confirmTelegram src tag accepted => Sys2Proof.Machine.execConfirmTelegram src tag accepted s
  | .responseWindowExpiry => Sys2Proof.Machine.execResponseWindowExpiry s
  | .commandWaitExpiry => Sys2Proof.Machine.execCommandWaitExpiry s
  | .watchTimerExpiry v => Sys2Proof.Machine.execWatchTimerExpiry v s
  | .steepPhaseTimerExpiry n => Sys2Proof.Machine.execSteepPhaseTimerExpiry n s
  | .fillTimeout n => Sys2Proof.Machine.execFillTimeout n s
  | .drainTimeout n => Sys2Proof.Machine.execDrainTimeout n s
  | .weighSettleEnd n => Sys2Proof.Machine.execWeighSettleEnd n s
  | .weighWindowExpiry n => Sys2Proof.Machine.execWeighWindowExpiry n s
  | .stageTimerExpiry c => Sys2Proof.Machine.execStageTimerExpiry c s
  | .intervalTimerExpiry c => Sys2Proof.Machine.execIntervalTimerExpiry c s
  | .moveTimerExpiry t => Sys2Proof.Machine.execMoveTimerExpiry t s
  | .passTimerExpiry t => Sys2Proof.Machine.execPassTimerExpiry t s
  | .breakPoint k => Sys2Proof.Machine.execBreakPoint k s
  | .firingTimeMinimum k => Sys2Proof.Machine.execFiringTimeMinimum k s
  | .firingTimeMaximum k => Sys2Proof.Machine.execFiringTimeMaximum k s
  | .coolTimerExpiry k => Sys2Proof.Machine.execCoolTimerExpiry k s
  | .stepTimerExpiry k => Sys2Proof.Machine.execStepTimerExpiry k s
  | .routeTimerExpiry => Sys2Proof.Machine.execRouteTimerExpiry s
  | .noFlowTimerExpiry => Sys2Proof.Machine.execNoFlowTimerExpiry s
  | .runOnTimerExpiry => Sys2Proof.Machine.execRunOnTimerExpiry s
  | .drawTimerExpiry => Sys2Proof.Machine.execDrawTimerExpiry s
  | .idleTimerExpiry => Sys2Proof.Machine.execIdleTimerExpiry s
  | .lockoutTimerExpiry => Sys2Proof.Machine.execLockoutTimerExpiry s
  | .trunkSilenceExpiry => Sys2Proof.Machine.execTrunkSilenceExpiry s
  | .countersCopyWritten => Sys2Proof.Machine.execCountersCopyWritten s
  | .storeWriteFailure what => Sys2Proof.Machine.execStoreWriteFailure what s
  | .transmitComplete => Sys2Proof.Machine.execTransmitComplete s
  | .trunkTelegram bytes => Sys2Proof.Machine.execTrunkTelegram bytes s
  | .trunkCommand dst src code arg tag => Sys2Proof.Machine.execTrunkCommand dst src code arg tag s
  | .tableWriteEntry r => Sys2Proof.Machine.execTableWriteEntry r s
  | .tableCommit r => Sys2Proof.Machine.execTableCommit r s
  | .tableDiscard r => Sys2Proof.Machine.execTableDiscard r s
  | .tableRead r => Sys2Proof.Machine.execTableRead r s
  | .batchOpen r => Sys2Proof.Machine.execBatchOpen r s
  | .batchStartSteep r => Sys2Proof.Machine.execBatchStartSteep r s
  | .batchAbandon r => Sys2Proof.Machine.execBatchAbandon r s
  | .batchRelease r => Sys2Proof.Machine.execBatchRelease r s
  | .batchRead r => Sys2Proof.Machine.execBatchRead r s
  | .vesselSetMode r => Sys2Proof.Machine.execVesselSetMode r s
  | .vesselSetGrant r => Sys2Proof.Machine.execVesselSetGrant r s
  | .vesselRead r => Sys2Proof.Machine.execVesselRead r s
  | .turnerHome r => Sys2Proof.Machine.execTurnerHome r s
  | .turnerClear r => Sys2Proof.Machine.execTurnerClear r s
  | .turnerRead r => Sys2Proof.Machine.execTurnerRead r s
  | .transferRequest r => Sys2Proof.Machine.execTransferRequest r s
  | .transferResume r => Sys2Proof.Machine.execTransferResume r s
  | .transferAbort r => Sys2Proof.Machine.execTransferAbort r s
  | .transferRead r => Sys2Proof.Machine.execTransferRead r s
  | .exciseUnlock r => Sys2Proof.Machine.execExciseUnlock r s
  | .exciseLock r => Sys2Proof.Machine.execExciseLock r s
  | .exciseReadEntry r => Sys2Proof.Machine.execExciseReadEntry r s
  | .exciseAcknowledgeExport r => Sys2Proof.Machine.execExciseAcknowledgeExport r s
  | .exciseReadStatus r => Sys2Proof.Machine.execExciseReadStatus r s
  | .partReadStatus r => Sys2Proof.Machine.execPartReadStatus r s
  | .partSetPlantTime r => Sys2Proof.Machine.execPartSetPlantTime r s
  | .partReadCounters r => Sys2Proof.Machine.execPartReadCounters r s
  | .partClearCounters r => Sys2Proof.Machine.execPartClearCounters r s
  | .partReset r => Sys2Proof.Machine.execPartReset r s
  | .unknownRequest src seq payload => Sys2Proof.Machine.execUnknownRequest src seq payload s

end Sys2Proof.Machine
end

