-- ==== Sys2Proof/WellFormed.lean ====
section
/-! DEFINITION. WellFormed.lean: which commands the links can bring (R165, R167, R168, R182). exec gives a command that is
not well formed the outcome that the tests of R168, R169 and R182 give its telegram. -/

namespace Sys2Proof

/-- A management request has 0..46 argument bytes (Table 11-1). -/
def Request.wf (r : Request) : Bool := decide (r.args.length ≤ 46)

/-- The class and code pairs of Table 11-3: each class with the number of its codes. -/
def requestClasses : List (Nat × Nat) := [(1, 4), (2, 5), (3, 3), (4, 3), (5, 4), (6, 5), (7, 5)]

/-- A payload that names a request of Table 11-3 (R182). -/
def namesRequest : List Byte → Bool
  | c :: d :: _ => requestClasses.any fun x => decide (x.1 = c.toNat) && decide (1 ≤ d.toNat) && decide (d.toNat ≤ x.2)
  | _ => false

/-- A SAMPLE payload holds 1..12 entries of 4 bytes (R167). -/
def samplePayloadWf (p : List Byte) : Bool :=
  decide (p.length % 4 = 0) && decide (4 ≤ p.length) && decide (p.length ≤ 48)

/-- A well-formed command: a SAMPLE with a legal payload, a COMMAND to an address that the relay takes (Table 9-5), a
request with at most 46 argument bytes, an unknown request that is short or names none, and every event of the part. -/
def Instr.wf : Instr → Bool
  | .sampleTelegram _ _ p => samplePayloadWf p
  | .trunkCommand dst _ _ _ _ => decide (dst.toNat ≤ 63)
  | .unknownRequest _ _ p => decide (p.length ≤ 48) && !namesRequest p
  | .tableWriteEntry r | .tableCommit r | .tableDiscard r | .tableRead r => r.wf
  | .batchOpen r | .batchStartSteep r | .batchAbandon r | .batchRelease r | .batchRead r => r.wf
  | .vesselSetMode r | .vesselSetGrant r | .vesselRead r => r.wf
  | .turnerHome r | .turnerClear r | .turnerRead r => r.wf
  | .transferRequest r | .transferResume r | .transferAbort r | .transferRead r => r.wf
  | .exciseUnlock r | .exciseLock r | .exciseReadEntry r | .exciseAcknowledgeExport r | .exciseReadStatus r => r.wf
  | .partReadStatus r | .partSetPlantTime r | .partReadCounters r | .partClearCounters r | .partReset r => r.wf
  | .powerOnReset | .commandedReset | .timeBaseMark | .heldMarkCycleStart => true
  | .fieldTelegramDiscard _ | .confirmTelegram _ _ _ | .responseWindowExpiry | .commandWaitExpiry => true
  | .watchTimerExpiry _ | .steepPhaseTimerExpiry _ | .fillTimeout _ | .drainTimeout _ => true
  | .weighSettleEnd _ | .weighWindowExpiry _ | .stageTimerExpiry _ | .intervalTimerExpiry _ => true
  | .moveTimerExpiry _ | .passTimerExpiry _ | .breakPoint _ | .firingTimeMinimum _ | .firingTimeMaximum _ => true
  | .coolTimerExpiry _ | .stepTimerExpiry _ => true
  | .routeTimerExpiry | .noFlowTimerExpiry | .runOnTimerExpiry | .drawTimerExpiry => true
  | .idleTimerExpiry | .lockoutTimerExpiry | .trunkSilenceExpiry => true
  | .countersCopyWritten | .storeWriteFailure _ | .transmitComplete | .trunkTelegram _ => true

end Sys2Proof
end

