-- ==== Sys2Proof/Safety.lean ====
section
/-! DEFINITION. Safety.lean: what claims about a run speak of: the invariants that a safe run keeps, and when a request is
taken, a command finds room in the command queue, and a reply goes out. -/

namespace Sys2Proof.Machine

/-! ## Invariants -/

/-- R101: the grants never sum above the firing budget, and no throttle cap exceeds its grant. -/
def State.heatOk (s : State) : Prop :=
  (s.kiln 0).grant + (s.kiln 1).grant ≤ s.budget ∧ ∀ k : Fin 2, (s.kiln k).cap ≤ (s.kiln k).grant

/-- R158: at most 16 queued commands, at most 12 of them of PLANT origin, and never two for one station and code. -/
def State.queueOk (s : State) : Prop :=
  s.filter.queue.length ≤ 16 ∧ s.filter.plantCount ≤ 12 ∧
    (s.filter.queue.map fun e => (e.offer.station, e.offer.code)).Nodup

/-- What a pending mark is kept for: one source and kind. -/
def Notice.key (n : Notice) : NoticeKind × SourceClass × Nat := (n.kind, n.cls, n.idx)

/-- R189: at most 32 notices, one pending mark for each source and kind, and marks only while the queue is full. -/
def State.noticesOk (s : State) : Prop :=
  s.notices.queue.length ≤ 32 ∧ (s.notices.marks ≠ [] → s.notices.queue.length = 32) ∧
    (s.notices.marks.map Notice.key).Nodup

/-- A safe state keeps the three bounds that the manual states for the whole part. -/
def State.safe (s : State) : Prop := s.heatOk ∧ s.queueOk ∧ s.noticesOk

/-! ## Requests -/

/-- A request is taken for an originator and executed (R168, R183): no event is under way, the payload is a legal one, the
trunk is not lost, a reply place is free, requests are taken, and the originator has none in progress. -/
def State.takes (s : State) (o : Originator) (r : Request) : Bool :=
  s.work.isEmpty && r.wf && !s.trunk.lost && !s.mgmt.stopped && decide (s.trunk.placesUsed < 4) &&
    decide (s.originatorOf r.src.toNat = some o) && (s.inProgress o).isNone

/-- The state in which a taken request is executed: its reply place is held, a telegram of the plant controller has
reloaded the silence timer (R173), and one of the excise terminal the idle timer of an open lock (R150). -/
def State.received (s : State) (o : Originator) : State :=
  { s with
    trunk := { s.trunk with
      silence := if o = .plant then some s.silenceTenths else s.trunk.silence
      held := s.trunk.held + 1 }
    excise := if o = .excise ∧ s.excise.lock = .unlocked then { s.excise with idle := some idleTenths } else s.excise }

/-- The reply to a request, with a status alone. -/
def State.replies (s : State) (r : Request) (cls code : Nat) (st : Status) : State :=
  s.formReply r.src.toNat r.seq.toNat cls code st 0 [] false

/-- The reply telegrams that are being sent or ready to be sent, in order. -/
def State.replyTelegrams (s : State) : List (List Byte) :=
  (match s.trunk.tx with
    | some { origin := .reply _, bytes } => [bytes]
    | _ => []) ++ s.trunk.replies.map fun r => telegram r.dest s.ownAddr tREPLY r.seq r.payload

/-! ## Commands of the part's own blocks -/

/-- The mode check of an offer for a station: its owner vessel's mode passes the origin, or it has no owner (R153). -/
def State.modeAllows (s : State) (station : Nat) (o : Origin) : Bool :=
  match s.tables.stationOwner station with
  | some v => modePasses (s.vessel v).mode o
  | none => true

/-- A command for a station and code passes the checks of R153 to R156 unchanged but for the kiln guard, and finds a new
place in the queue (R158): the station is known, its owner's mode passes the origin, no interlock entry names it, the
queue holds no command of its key, has a slot, and no offer waits. -/
def State.roomFor (s : State) (station code : Nat) (o : Origin) : Bool :=
  decide (station ≠ 0) && decide (1 ≤ code) && decide (code ≤ 12) && (s.tables.station.get station).isSome &&
    s.modeAllows station o &&
    !(s.tables.interlock.any fun e => decide (e.2.station = station)) && (s.filter.entry station code).isNone &&
    decide (s.filter.queue.length < 16) && s.filter.waiting.isEmpty

/-- A block's offer placed at the back of the command queue. -/
def State.queued (s : State) (station code : Nat) (arg : Int) (o : Origin) (p : Purpose) : State :=
  s.onFilter fun f => { f with
    serial := f.serial + 1
    queue := f.queue ++ [{ offer := { station, code, arg, origin := o, answer := .block p f.serial }
                           owner := s.tables.stationOwner station, caps := [] }] }

/-- The argument of an offer whose code uses none: the free value of its serial number. -/
def State.noArg (s : State) : Int := (Config.unusedArg s.filter.serial).toInt

/-- The transfer run with a request of a sequencer in its list (R117). -/
def State.requested (s : State) (k : TransferKind) (v : Fin 12) (d : Option (Fin 13)) : TransferRun :=
  { s.transfer with
    requests := insertReq s.transfer.requests { kind := k, source := v, dest := d, fromPlant := false, time := s.timeNow } }

/-- The state in which an abort of the running transfer r, with a route of one leg, waits for its STOP's report (R131). -/
def State.aborting (s : State) (r : Running) (leg : RouteLeg) (c : AbortCause) : State :=
  (s.queued leg.step.station cSTOP s.noArg .override .stopAbort).onTransfer fun u => { u with
    running := some { r with
      state := .aborted, cause := some c, routeTimer := none, noFlow := none, runOn := none, draw := none, out := none
      stops := [{ serial := s.filter.serial }] } }

/-- The arbiter's scan finds nothing to start: a transfer runs, or no request waits (R121). -/
def State.noScan (s : State) : Bool := s.transfer.running.isSome || s.transfer.requests.isEmpty

end Sys2Proof.Machine
end

