-- ==== Sys2Proof/Certificates/Slice0/Obligations.lean ====
section
/-! DEFINITION. Certificates/Slice0/Obligations.lean: the statements for the provers. The next states are written with the
updates of Machine/Ops.lean and with the part's own acts of posting a notice, forming a reply and writing a register entry,
each of which has a statement of its own here. -/

open Sys2Proof Sys2Proof.Machine

/-! ## The step, reset and the invariants -/

/-- The step takes the command at the front of the queue and executes it with the rest of the queue waiting. On an empty
queue the block idles, which is the model's choice (assumption 16). -/
def Obligations.StepRunsTheFrontCommand : Prop :=
  (∀ (c : Instr) (rest : List Instr) (s : State), step (s.withPending (c :: rest)) = exec c (s.withPending rest)) ∧
  ∀ s : State, s.pending = [] → step s = .next s

/-- R135, R144: power-up of a part with a store that was never formatted leaves the state after reset. That State.reset is
this machine, with the formatted store in it, is the model's choice (assumptions 40 and 43). -/
def Obligations.PowerUpOfANewPartIsReset : Prop := exec .powerOnReset {} = .next State.reset

/-- R144, R188: both resets put every block into its reset state, whatever the state before, and lock the excise unit
with its staged copies equal to the committed ones and no transfer open; the queue of waiting commands stays. No
notice is pending as a mark, and the notices that wait and the one being sent are the start-up's own EXCISE notices. What
the store holds stays (R136), and a store that was never formatted is formatted with the values of R135 and Table 7-1. That
these values then stand in copy A with sequence number 0 and a good check, with no copy B, durable at once, is the model's
choice (assumption 40). That the waiting commands stay, the start values of the fields that no rule gives, and the model's
own count of draws, which a store without a good copy moves on by one, are the model's choices too (assumptions 41, 61 and
5), and that no field cycle starts is its inference (assumption 19). -/
def Obligations.ResetClearsEveryBlock : Prop :=
  ∀ (s : State) (c : Instr), (c = .powerOnReset ∨ (c = .commandedReset ∧ s.mgmt.resetDue = true)) →
    ∃ e n tx q d,
      exec c s = .next { ({} : State) with
        excise := e, notices := n, trunk := { ({} : Trunk) with tx := tx, seq := q }, draws := d, pending := s.pending } ∧
      e.lock = .locked ∧ e.failed = 0 ∧ e.idle = none ∧ e.lockout = none ∧ e.staged = e.now.tables ∧
      e.now.openNo = 0 ∧ e.now.reservation = 0 ∧
      e.nv = (if s.excise.nv.formatted then s.excise.nv else
        { formatted := true, copyA := some { seq := 0, good := true, counters := {} }, copyB := none, slots := [] }) ∧
      d = (if e.nv.best.isNone then s.draws + 1 else s.draws) ∧
      n.marks = [] ∧ n.queue.length ≤ 2 ∧
      (∀ x ∈ n.queue, x.kind = .excise ∧ x.cls = .excise ∧ x.idx = 0 ∧ x.time = 0) ∧
      ((tx = none ∧ q = 0 ∧ n.queue = []) ∨
        (q = 1 ∧ ∃ x : Notice, x.kind = .excise ∧ x.cls = .excise ∧ x.idx = 0 ∧ x.time = 0 ∧
          tx = some { origin := .notice, bytes := telegram 1 112 tNOTICE 0 x.payload }))

/-- R144: with a good copy, no pending RESTART mark and room for two entries, a start-up writes a RESTART entry that names
the open transfer, and a LOCK entry with cause RESET, chained to the copy's chain value, in one event. -/
def Obligations.StartUpWritesRestartAndLock : Prop :=
  ∀ (s : State) (c : Instr) (cause : RestartCause) (k : Copy),
    ((c = .powerOnReset ∧ cause = .power) ∨ (c = .commandedReset ∧ s.mgmt.resetDue = true ∧ cause = .commanded)) →
    s.excise.nv.recover.best = some k → k.counters.restart = none → 1 ≤ k.counters.next →
    k.counters.next + 1 < max32 → k.counters.next - 1 - k.counters.exported + k.counters.reservation < 512 →
    k.counters.next - 1 - k.counters.exported < 511 →
    let n := k.counters.next
    let r : Entry := { number := n, kind := 13, flags := 4, computed := k.counters.openNo, a0 := cause.code }
    let x := crc32 k.counters.chain r.head
    let l : Entry := { number := n + 1, kind := 11, flags := 4, a0 := 3 }
    let y := crc32 x l.head
    ∃ t, exec c s = .next t ∧
      t.excise.slots.get (slotOf n) = some { r with chain := x } ∧
      t.excise.slots.get (slotOf (n + 1)) = some { l with chain := y } ∧
      t.excise.now = { k.counters with next := n + 2, chain := y, openNo := 0, reservation := 0 } ∧
      t.excise.jobs = [{ entries := [{ r with chain := x }, { l with chain := y }], counters := t.excise.now }]

/-- The state after reset keeps the three bounds. -/
def Obligations.ResetIsSafe : Prop := State.reset.safe

/-- R101: every step keeps the grants within the firing budget, and each cap within its grant. -/
def Obligations.GrantsStayWithinTheBudget : Prop := ∀ s t : State, s.heatOk → step s = .next t → t.heatOk

/-- R158: every step keeps the bounds of the command queue. -/
def Obligations.CommandQueueStaysBounded : Prop := ∀ s t : State, s.queueOk → step s = .next t → t.queueOk

/-- R189: every step keeps the bounds of the notice queue and its pending marks. -/
def Obligations.NoticeQueueStaysBounded : Prop := ∀ s t : State, s.noticesOk → step s = .next t → t.noticesOk

/-! ## Time (chapters 0, 2 to 7, R176, R185) -/

/-- What a tenth of a second does to the clock, to the program timers of steeps, compartments and kilns, to the watch,
turner and lock timers, and to the transfer run's four timers (R38, R49, R64, R94, R97, R109, R124 to R128, R150,
R173). A stage's firing time advances in FIRING and AUTO while the kiln is not BLIND and its burner's latest report is
no lockout; that it stands at the stage's maximum duration is the model's inference (assumption 21). That a timer
whose expiry is due rests at 0 is the model's choice (assumption 15), and so is the tick itself, which TIME_BASE_MARK
makes (assumption 18). -/
def Obligations.TenthOfASecondRunsTheTimers : Prop :=
  ∀ s : State,
    s.tick.clock = { process := (s.clock.process + 1) % timeModulus, plant := s.clock.plant.map PlantTime.tick } ∧
    s.tick.trunk = { s.trunk with silence := s.trunk.silence.map (· - 1) } ∧
    (∀ v, s.tick.vessel v = { s.vessel v with watch := (s.vessel v).watch.map (· - 1) }) ∧
    (∀ i, s.tick.steep i = { s.steep i with
      phaseTimer := if s.steepMode i = .auto ∧ s.steepBlind i = false then (s.steep i).phaseTimer.map (· - 1)
        else (s.steep i).phaseTimer
      wait := (s.steep i).wait.map fun w =>
        if s.steepMode i = .auto ∧ (s.steepBlind i = false ∨ w.1 ≠ .settle) then (w.1, w.2 - 1) else w }) ∧
    (∀ c, s.tick.comp c = { s.comp c with
      stageTimer := if s.compMode c = .auto ∧ (s.comp c).phase = .germinating ∧ s.compBlind c = false
        then (s.comp c).stageTimer.map (· - 1) else (s.comp c).stageTimer
      interval := if s.compMode c = .auto ∧ (s.comp c).phase = .germinating ∧ s.compBlind c = false
        then (s.comp c).interval.map (· - 1) else (s.comp c).interval }) ∧
    (∀ t, s.tick.turner t = { s.turner t with
      moveTimer := (s.turner t).moveTimer.map (· - 1), passTimer := (s.turner t).passTimer.map (· - 1) }) ∧
    (∀ k, s.tick.kiln k = { s.kiln k with
      firing := if (s.kiln k).phase = .firing ∧ s.kilnMode k = .auto ∧ s.kilnBlind k = false ∧
          (s.kiln k).burner ≠ some 3 ∧ ((s.kiln k).fields.any fun f => decide ((s.kiln k).firing < f.maxDur * 600)) = true
        then (s.kiln k).firing + 1 else (s.kiln k).firing
      cool := if s.kilnMode k = .auto ∧ s.kilnBlind k = false then (s.kiln k).cool.map (· - 1) else (s.kiln k).cool
      step := if s.kilnMode k ≠ .off ∧ (s.kiln k).thermal ≠ .holding then (s.kiln k).step.map fun d => (d.1, d.2 - 1)
        else (s.kiln k).step }) ∧
    s.tick.transfer = { s.transfer with running := s.transfer.running.map fun r => { r with
      routeTimer := r.routeTimer.map (· - 1), noFlow := r.noFlow.map (· - 1), runOn := r.runOn.map (· - 1)
      draw := r.draw.map (· - 1) } } ∧
    s.tick.excise = { s.excise with
      idle := if s.mgmt.excise = none then s.excise.idle.map (· - 1) else s.excise.idle
      lockout := s.excise.lockout.map (· - 1) }

/-- R176 to R178: a mark of the time base that finds the master busy is held, and one that finds a mark held is lost
and counted; no cycle starts. A cycle whose slot head is END, with no command queued, adopts a committed schedule,
takes the next cycle number, makes the staleness check and ends at once; from a held mark the late-cycle count goes
up. A cycle whose slot head names an active descriptor of a known station sends that station a POLL and waits for its
response window. The staleness check makes an MP in GOOD or SUSPECT STALE where the process time since its last good
time exceeds its stale limit, keeps its value and that time, and changes nothing else (R28); that this age is taken
modulo 2^32 is the model's choice (assumption 95). That TIME_BASE_MARK first
advances time and every timer is the model's choice (assumption 18). -/
def Obligations.MarkIsHeldOrStartsItsCycle : Prop :=
  (∀ s : State, s.tables.mp.wf = true →
    s.staleCheck = { s with intake := { s.intake with live := s.staleCheck.intake.live } } ∧
    (∀ n, s.tables.mp.get n = none → s.staleCheck.live n = s.live n) ∧
    ∀ n e, s.tables.mp.get n = some e →
      (∀ t, (s.live n).lastGood = some t → ((s.live n).status = .good ∨ (s.live n).status = .suspect) →
        e.stale < (s.clock.process + timeModulus - t) % timeModulus →
        s.staleCheck.live n = { s.live n with status := .stale }) ∧
      (((s.live n).lastGood = none ∨ ((s.live n).status ≠ .good ∧ (s.live n).status ≠ .suspect) ∨
        ∃ t, (s.live n).lastGood = some t ∧ (s.clock.process + timeModulus - t) % timeModulus ≤ e.stale) →
        s.staleCheck.live n = s.live n)) ∧
  (∀ s : State, s.work = [] →
    (s.field.busy = true → exec .timeBaseMark s = .next (s.tick.onField fun f => { f with
      heldMark := true
      lost := if s.field.heldMark then satAdd max16 f.lost 1 else f.lost })) ∧
    (s.field.busy = false → s.filter.queue = [] →
      let n := (s.field.cycle + 1) % timeModulus
      let sched := if s.field.adopt then s.tables.schedule else s.field.sched
      sched.heads.get (n % 16) = none →
      (s.field.heldMark = false → exec .timeBaseMark s = .next (s.tick.staleCheck.onField fun f => { f with
        sched := sched, adopt := false, cycle := n, busy := false, polled := [], sent := [], phase := .idle })) ∧
      (s.field.heldMark = true → exec .heldMarkCycleStart s = .next (s.staleCheck.onField fun f => { f with
        heldMark := false, late := satAdd max16 f.late 1
        sched := sched, adopt := false, cycle := n, busy := false, polled := [], sent := [], phase := .idle })))) ∧
  ∀ (s : State) (d : Nat) (e : StationEntry), s.work = [] → s.field.busy = false →
    let n := (s.field.cycle + 1) % timeModulus
    let sched := if s.field.adopt then s.tables.schedule else s.field.sched
    let x := sched.desc d
    sched.heads.get (n % 16) = some d → x.active = true → s.tables.station.get x.station = some e →
    (s.field.heldMark = false → exec .timeBaseMark s = .next (s.tick.staleCheck.onField fun f => { f with
      sched := sched, adopt := false, cycle := n, busy := true, polled := [x.station]
      sent := [telegram x.station s.ownAddr tPOLL f.seq []], seq := (f.seq + 1) % 256
      phase := .polling x.station e.window x.missLimit x.link 1 })) ∧
    (s.field.heldMark = true → exec .heldMarkCycleStart s = .next (s.staleCheck.onField fun f => { f with
      heldMark := false, late := satAdd max16 f.late 1
      sched := sched, adopt := false, cycle := n, busy := true, polled := [x.station]
      sent := [telegram x.station s.ownAddr tPOLL f.seq []], seq := (f.seq + 1) % 256
      phase := .polling x.station e.window x.missLimit x.link 1 }))

/-! ## The field line (R26 to R30, R161, R162, R169, R178 to R180) -/

/-- R26 to R30, R39, R178, R179: the SAMPLE of the polled station, one entry of it, ends the wait with a good answer.
A mapped entry of an MP without comparator, watch or forward flag sets that MP as R27 states, and does nothing else
where the MP has no owner or is not the lowest-numbered of its role; that this holds of AIR_OFF_HUMIDITY too, so that
such an MP attempts no drying step (R13), is the model's inference (assumption 34). A burner's RUN_STATE is handed to its
kiln. An unmapped one is counted, and the telegram is forwarded where the station's flag says so. The walk then ends and
the window closes. A usable entry is taken by the comparator, then by the owner, and then by the watch, in the order of
R27; for the watch of a steep or compartment it loads the watch timer and clears BLIND, and the watch of a kiln is left
out. That what an entry sets off is settled before the next one is the model's choice (assumption 22). -/
def Obligations.SampleAnswersThePoll : Prop :=
  (∀ (s : State) (src seq c q h l : Byte) (w lim visits : Nat) (hl : Health),
    s.work = [] → s.filter.queue = [] → s.field.phase = .polling src.toNat w lim none visits →
    s.field.health.get src.toNat = some hl → hl.up = true →
    let x : SampleEntry :=
      { channel := c.toNat, quality := q.toNat / 64, bits := (q.toNat % 64) * 65536 + h.toNat * 256 + l.toNat }
    let a := s.onField fun f => { f with
      phase := .idle, busy := false
      health := f.health.put src.toNat { up := true, misses := 0, lastGood := some s.timeNow } }
    (∀ n e, s.mapEntry src.toNat x.channel = some (n, e) → e.watch = false → e.forward = false → (s.live n).comp = none →
      let taken := a.onLive n fun m => m.take e x s.timeNow
      ((e.owner = .none ∨ s.mpOf e.owner e.role ≠ some n) →
        exec (.sampleTelegram src seq [c, q, h, l]) s = .next taken) ∧
      (∀ k : Fin 2, e.owner = .vessel (kilnNo k) → e.role = .burnerState → s.mpOf e.owner e.role = some n → x.quality < 2 →
        e.rmin ≤ (entryValue e.kind x.bits).val → (entryValue e.kind x.bits).val ≤ e.rmax →
        exec (.sampleTelegram src seq [c, q, h, l]) s =
          .next (taken.onKiln k fun y => { y with burner := some (entryValue e.kind x.bits).val }))) ∧
    (s.mapEntry src.toNat x.channel = none →
      let u := a.onIntake fun i => { i with unmapped := satAdd max32 i.unmapped 1 }
      exec (.sampleTelegram src seq [c, q, h, l]) s = .next
        (if (s.tables.station.get src.toNat).any (·.fwdUnmapped)
          then u.forward { src := src.toNat, seq := seq.toNat, payload := [c, q, h, l] } else u))) ∧
  (∀ (s : State) (st : Nat) (x : SampleEntry) (n : Nat) (e : MpEntry), s.mapEntry st x.channel = some (n, e) → x.quality < 2 →
    e.rmin ≤ (entryValue e.kind x.bits).val → (entryValue e.kind x.bits).val ≤ e.rmax →
    let v := entryValue e.kind x.bits
    s.takeEntry st x = (((((s.onLive n fun m => { m with
      status := if x.quality = 0 then .good else .suspect, last := some v, lastGood := some s.timeNow }).compare n e
        v.val).deliver n e v).watchDelivery n e)).settle) ∧
  ∀ (s : State) (n : Nat) (e : MpEntry) (v : Fin 12) (i : Nat), e.owner = .vessel v → e.watch = true → v.val < 10 →
    s.tables.vessel.watchOf v = some i →
    ((s.vessel v).mode = .off → s.watchDelivery n e = s) ∧
    ((s.vessel v).mode ≠ .off → (s.vessel v).blind = false →
      s.watchDelivery n e = s.onVessel v fun r => { r with watch := some (i * 10) }) ∧
    ((s.vessel v).mode ≠ .off → (s.vessel v).blind = true → s.watchDelivery n e =
      (s.onVessel v fun r => { r with watch := some (i * 10), blind := false }).post .blind .vessel v.val 1 n)

/-- R27: the status, last value and last good time that an entry sets, from its quality and its value. -/
def Obligations.EntrySetsStatusAndValue : Prop :=
  ∀ (m : MpLive) (e : MpEntry) (x : SampleEntry) (now : Nat),
    let v := entryValue e.kind x.bits
    let r := m.take e x now
    r.comp = m.comp ∧ r.stageHigh = m.stageHigh ∧
    (x.quality ≠ 0 → x.quality ≠ 1 → r.status = .failed ∧ r.last = m.last ∧ r.lastGood = m.lastGood) ∧
    (x.quality = 0 ∨ x.quality = 1 →
      (v.val < e.rmin → r.status = .clamped ∧ r.last = some { v with val := e.rmin } ∧ r.lastGood = m.lastGood) ∧
      (e.rmin ≤ v.val → e.rmax < v.val →
        r.status = .clamped ∧ r.last = some { v with val := e.rmax } ∧ r.lastGood = m.lastGood) ∧
      (e.rmin ≤ v.val → v.val ≤ e.rmax →
        r.status = (if x.quality = 0 then .good else .suspect) ∧ r.last = some v ∧ r.lastGood = some now))

/-- Sections 2.2 and 2.3, Table 2-6, R34 to R37: a comparator in NORMAL, HIGH or LOW takes the value of a usable
sample and moves as Table 2-6 states under its effective limits, an absent limit never being crossed; NORMAL is where
neither HIGH nor LOW is reached, and HIGH comes before LOW where a high limit lies below the low one, which is the model's
choice (assumption 101). A comparator in SETTLING counts its usable samples down, and the last is evaluated
from the remembered state. A stage high limit that changes the effective limits puts the comparator into SETTLING and
makes a kiln HOLDING; one that leaves them as they were changes nothing else; with no limit left the comparator
ceases, and a standing HIGH or LOW is closed with a NORMAL notice; that the notice carries the delta alone for an ENCODER
MP, and 0 where the MP has no last value, is the model's choice (assumptions 105 and 57). At a COMMIT of the MP table, in the model's order
(assumption 33), an MP whose entry is as before keeps its live state, and a new one starts with Table 2-2's. -/
def Obligations.ComparatorMovesByTable : Prop :=
  ((∀ (s : State) (n : Nat) (e : MpEntry) (l : Level) (v : Int), (s.live n).comp = some (.steady l) →
    ((s.compare n e v).live n).comp = some (.steady ((e.limits (s.live n).stageHigh).next l v))) ∧
  ∀ (l : Limits) (v : Int),
    (l.next .normal v = .high ↔ ∃ hi, l.hi = some hi ∧ hi < v) ∧
    (l.next .normal v = .low ↔ (∃ lo, l.lo = some lo ∧ v < lo) ∧ ∀ hi, l.hi = some hi → v ≤ hi) ∧
    (l.next .high v = .high ↔ ∃ hi, l.hi = some hi ∧ hi - l.hyst < v) ∧
    (l.next .high v = .low ↔ (∃ lo, l.lo = some lo ∧ v < lo) ∧ ∀ hi, l.hi = some hi → v ≤ hi - l.hyst) ∧
    (l.next .low v = .low ↔ ∃ lo, l.lo = some lo ∧ v < lo + l.hyst) ∧
    (l.next .low v = .high ↔ (∃ hi, l.hi = some hi ∧ hi < v) ∧ ∀ lo, l.lo = some lo → lo + l.hyst ≤ v)) ∧
  (∀ (s : State) (n : Nat) (e : MpEntry) (r : Level) (left : Nat) (v : Int), (s.live n).comp = some (.settling r left) →
    (1 < left → s.compare n e v = s.onLive n fun x => { x with comp := some (.settling r (left - 1)) }) ∧
    (left ≤ 1 → e.owner = .none →
      let l := (e.limits (s.live n).stageHigh).next r v
      let t := s.onLive n fun x => { x with comp := some (.steady l) }
      s.compare n e v = if l = r then t else t.post .limit .mp n l.code v)) ∧
  (∀ (s : State) (n : Nat) (e : MpEntry) (h : Option Int), s.tables.mp.get n = some e →
    let old := e.limits (s.live n).stageHigh
    let new := e.limits h
    let m := s.live n
    let set (f : MpLive → MpLive) : State := s.onLive n fun x => f { x with stageHigh := h }
    let r : Level := match m.comp with
      | some (.steady l) => l
      | some (.settling l _) => l
      | none => .normal
    (old = new → s.setStageHigh n h = set id) ∧
    (0 < e.settle → new.any = true → old ≠ new →
      let t := set fun x => { x with comp := some (.settling r e.settle) }
      ((∃ c, e.owner = .vessel (compNo c)) → s.setStageHigh n h = t) ∧
      (∀ k, e.owner = .vessel (kilnNo k) → e.role = .airOnTemp →
        s.setStageHigh n h = t.onKiln k fun y => { y with thermal := .holding })) ∧
    (new.any = false → old.any = true → (∃ c, e.owner = .vessel (compNo c)) →
      let t := set fun x => { x with comp := none }
      ((r = .normal ∨ m.comp = none) → s.setStageHigh n h = t) ∧
      (r ≠ .normal → s.setStageHigh n h = t.post .limit .mp n 0 ((m.last.map (·.val)).getD 0)))) ∧
  ∀ (s : State) (before : Tbl MpEntry) (n : Nat) (e : MpEntry), s.tables.mp.get n = some e →
    (before.get n = some e → s.commitMpEntry before n = (s, [])) ∧
    (before.get n = none → (s.live n).comp = none → ((s.commitMpEntry before n).1.live n) =
      { status := .none, last := none, lastGood := none, stageHigh := none
        comp := if e.low.isSome ∨ e.high.isSome then some (.steady .normal) else none })

/-- R178, R179: a poll whose window runs out is a miss: the miss count goes up, and an UP station whose count reaches the
descriptor's miss limit becomes DOWN with its notice. Here the walk and the window end with it. -/
def Obligations.MissedPollCountsAgainstTheStation : Prop :=
  ∀ (s : State) (st w lim visits : Nat) (hl : Health),
    s.work = [] → s.filter.queue = [] → s.field.phase = .polling st w lim none visits →
    s.field.health.get st = some hl →
    let n := min 15 (hl.misses + 1)
    let a := s.onField fun f => { f with phase := .idle }
    let close (x : State) : State := x.onField fun f => { f with busy := false, phase := .idle }
    (hl.up = true → lim ≤ n → exec .responseWindowExpiry s = .next (close ((a.onField fun f => { f with
      health := f.health.put st { hl with misses := n, up := false } }).post .station .station st 0 n))) ∧
    ((hl.up = false ∨ n < lim) → exec .responseWindowExpiry s = .next (close (a.onField fun f => { f with
      health := f.health.put st { hl with misses := n } })))

/-- R168, R169, R178: a field telegram that fails its check is counted in the check-error count; one that is not well
formed, is not for the part, is neither SAMPLE nor CONFIRM, or has a malformed payload is counted in the length-error
count; a SAMPLE that is not the answer to the present poll is counted as unexpected. On the trunk, a trunk telegram
that fails its check is counted in the check-error count and does nothing else; one that is not well formed is counted
in the length-error count; one of another source to another station is passed over. The check of a telegram that is not
well formed is the model's choice (assumption 79). -/
def Obligations.BadTelegramsAreCounted : Prop :=
  (∀ s : State, s.work = [] →
    (∀ b : List Byte, checkPasses b = false → exec (.fieldTelegramDiscard b) s =
      .next (s.onField fun f => { f with checkErrors := satAdd max16 f.checkErrors 1 })) ∧
    (∀ b : List Byte, checkPasses b = true →
      (frameOf b = none ∨ ∃ f, frameOf b = some f ∧ (f.dst ≠ s.ownAddr ∨ (f.kind ≠ tSAMPLE ∧ f.kind ≠ tCONFIRM) ∨
        (f.kind = tSAMPLE ∧ samplePayloadOk f.payload = false) ∨
        (f.kind = tCONFIRM ∧ ∀ tag r : Byte, f.payload = [tag, r] → r ≠ 1 ∧ r ≠ 2))) →
      exec (.fieldTelegramDiscard b) s =
        .next (s.onField fun f => { f with lengthErrors := satAdd max16 f.lengthErrors 1 })) ∧
    (∀ (src seq : Byte) (p : List Byte), samplePayloadOk p = true →
      (∀ w lim next visits, s.field.phase ≠ .polling src.toNat w lim next visits) →
      exec (.sampleTelegram src seq p) s = .next (s.onField fun f => { f with unexpected := satAdd max16 f.unexpected 1 }))) ∧
  ∀ (s : State) (b : List Byte), s.work = [] →
    (checkPasses b = false → exec (.trunkTelegram b) s =
      .next (s.onTrunk fun t => { t with checkErrors := satAdd max16 t.checkErrors 1 })) ∧
    (checkPasses b = true → frameOf b = none → exec (.trunkTelegram b) s =
      .next (s.onTrunk fun t => { t with lengthErrors := satAdd max16 t.lengthErrors 1 })) ∧
    (∀ f, checkPasses b = true → frameOf b = some f → f.src ≠ s.plantAddr → f.dst ≠ s.ownAddr → 63 < f.dst →
      exec (.trunkTelegram b) s = .next s)

/-- R9, R158, R161, R162, R180: a CONFIRM that matches no command is stray; ACCEPTED takes a PLANT command out of the
queue in silence, and a block's with a report of the argument as delivered, which a vessel takes without effect; a
SPRINKLE's litres as delivered are credited to a GERMINATING batch of the owner compartment. REJECTED answers a PLANT
command with STATION_REJECTED, and leaves a block's command in its place for three more deliveries; the fourth that
fails takes it out and reports it failed, a vessel fault. The CONFIRM of a replaced command keeps its outcome for the
window's end, and a SPRINKLE's litres are credited at once, which is the model's inference (assumption 76). A CONFIRM
inside its own wait also sends the next command of the window, where there is one, and else ends the window, and so
does a wait that runs out; a broadcast waits for no CONFIRM. At the window's end a command still in flight is answered
with NO_CONFIRM, left for another delivery, or reported failed, and a replaced one is told the
outcome that was kept. That a command whose delivery failed or was not confirmed stays with the argument it was queued
with is the model's choice (assumption 75), and so is that what a CONFIRM reports is settled before the window sends its
next command or ends (assumption 22). The vessel fault is shown for a vessel in MANUAL, and for a compartment or kiln in
AUTO; what a failed command does to a steep in AUTO and to a vessel in HOLD or OFF is left out. -/
def Obligations.CommandsAreConfirmedOrTimeOut : Prop :=
  (∀ (s : State) (src tag : Byte), s.work = [] →
    let gives (a : Bool) (u : State) : Prop :=
      ((∀ w rest, s.field.phase ≠ .window src.toNat w rest) → exec (.confirmTelegram src tag a) s = .next u) ∧
      (∀ w rest, s.field.phase = .window src.toNat w rest → u.work = [] → u.field.phase = s.field.phase →
        exec (.confirmTelegram src tag a) s = exec .commandWaitExpiry u) ∧
      (∀ w, s.field.phase = .window src.toNat w [] → u.work = [] → (∀ q ∈ u.filter.queue, q.flight = none) →
        exec (.confirmTelegram src tag a) s = .next (u.onField fun f => { f with busy := false, phase := .idle })) ∧
      (∀ w (c : SendCmd) rest, s.field.phase = .window src.toNat w (c :: rest) → u.work = [] → c.station ≠ 0 →
        exec (.confirmTelegram src tag a) s = .next ((u.putField c.station tCOMMAND c.payload).onField fun f =>
          { f with phase := .window c.station (u.windowOf c.station) rest }))
    (s.filter.matching src.toNat tag.toNat = none →
      ∀ a, gives a (s.onFilter fun f => { f with stray := satAdd max16 f.stray 1 })) ∧
    (∀ e x, s.filter.matching src.toNat tag.toNat = some (e, x) → s.filter.waiting = [] →
      let gone := s.dropEntry e.offer.station e.offer.code
      let kept (u : State) (a : Bool) : State := u.onEntry e.offer.station e.offer.code fun q => { q with
        flight := some { x with outcome := some a } }
      let credited (u : State) : Prop :=
        (u = s ∧ (e.offer.code ≠ cSPRINKLE ∨ x.arg ≤ 0 ∨ (∀ c, x.owner ≠ some (compNo c)) ∨
          ∃ c, x.owner = some (compNo c) ∧ ∀ m b, s.batchAt (compNo c) = some (m, b) → b.state ≠ .germinating)) ∨
        ∃ c m b d, e.offer.code = cSPRINKLE ∧ 0 < x.arg ∧ x.owner = some (compNo c) ∧
          s.batchAt (compNo c) = some (m, b) ∧ s.batch.slots.get m = some b ∧ b.state = .germinating ∧ b.acct = some d ∧
          let sum := d.water + x.arg.toNat * 1000
          let water := min sum 50000000
          u = s.onSlot m fun _ => { b with
            acct := some { d with water := water, moisture := water * 10000 / (d.dry + water) }
            marks := { b.marks with waterCeiling := b.marks.waterCeiling || decide (50000000 < sum) }
            litres := min max32 (b.litres + x.arg.toNat) }
      (x.replaced = true → gives false (kept s false) ∧ ∀ u, credited u → gives true (kept u true)) ∧
      (∀ p, x.replaced = false → x.answer = .plant p →
        (∀ u, credited u → gives true (u.dropEntry e.offer.station e.offer.code)) ∧
        gives false (gone.refuse e.offer.station e.offer.code p .stationRejected 0)) ∧
      (∀ p n, x.replaced = false → x.answer = .block p n →
        (∀ u, credited u →
          gives true ((u.dropEntry e.offer.station e.offer.code).emit
            (.report (.accepted x.arg) p n e.offer.code)).settle ∧
          ∀ v, p = .vessel v → gives true (u.dropEntry e.offer.station e.offer.code)) ∧
        (e.tries < 3 → gives false (s.onEntry e.offer.station e.offer.code fun q => { q with
          tries := q.tries + 1, flight := none })) ∧
        (3 ≤ e.tries →
          gives false (gone.emit (.report .failed p n e.offer.code)).settle ∧
          ∀ v, p = .vessel v → ((s.vessel v).mode = .manual ∨ ((s.vessel v).mode = .auto ∧ 4 ≤ v.val)) →
            gives false (((gone.onVessel v fun y => { y with
              mode := .hold, fault := some (y.fault.getD .commandFailed) }).post .fault .vessel v.val 3
                (s.phaseIndex v)).post .mode .vessel v.val 3 ((s.vessel v).mode.code : Nat)))))) ∧
  ∀ (s : State) (st w : Nat), s.work = [] →
    (∀ (c : SendCmd) rest, s.field.phase = .window st w (c :: rest) → c.station ≠ 0 →
      exec .commandWaitExpiry s = .next ((s.putField c.station tCOMMAND c.payload).onField fun f =>
        { f with phase := .window c.station (s.windowOf c.station) rest })) ∧
    (∀ (b c : SendCmd) rest, s.field.phase = .window st w (b :: c :: rest) → b.station = 0 → c.station ≠ 0 →
      exec .commandWaitExpiry s = .next (((s.putField 0 tCOMMAND b.payload).putField c.station tCOMMAND
        c.payload).onField fun f => { f with phase := .window c.station (s.windowOf c.station) rest })) ∧
    (∀ (e : QEntry) (x : Flight), s.field.phase = .window st w [] → s.filter.queue = [e] → s.filter.waiting = [] →
      e.flight = some x →
      let left (q : List QEntry) : State := s.onFilter fun f => { f with queue := q }
      let ends (u : State) : Prop :=
        exec .commandWaitExpiry s = .next (u.onField fun f => { f with busy := false, phase := .idle })
      let back := left [{ e with flight := none }]
      (∀ p, x.replaced = false → x.answer = .plant p →
        ends ((left []).refuse e.offer.station e.offer.code p .noConfirm 0)) ∧
      (∀ p n, x.replaced = false → x.answer = .block p n →
        (e.tries < 3 → ends (left [{ e with tries := e.tries + 1, flight := none }])) ∧
        (3 ≤ e.tries → exec .commandWaitExpiry s = .next (((left []).emit (.report .failed p n e.offer.code)).onField
          fun f => { f with busy := false, phase := .idle }).settle)) ∧
      (∀ p, x.replaced = true → x.answer = .plant p →
        (x.outcome = some true → ends back) ∧
        (x.outcome = some false → ends (back.refuse e.offer.station e.offer.code p .stationRejected 0)) ∧
        (x.outcome = none → ends (back.refuse e.offer.station e.offer.code p .noConfirm 0))) ∧
      (∀ p n, x.replaced = true → x.answer = .block p n →
        exec .commandWaitExpiry s = .next ((back.emit (.report (if x.outcome = some true then .accepted x.arg
          else .withdrawn) p n e.offer.code)).onField fun f => { f with busy := false, phase := .idle }).settle))

/-- R159: an offer of the part's own that finds the queue full, or its place held by an OVERRIDE entry, waits with the
time of the offer; one of the same block for the same station and code as a waiting offer takes its place in the list,
and the older is reported withdrawn, by an event of the model's own (assumption 1). That the newer one keeps the older
one's time is the model's choice (assumption 78). When an entry leaves the queue the waiting offer is taken through all
checks again: it is queued where it now finds room, and waits on where it does not. -/
def Obligations.WaitingOffersAreOfferedAgain : Prop :=
  (∀ (s : State) (o : Offer) (q : QEntry), o.origin ≠ .plant → s.checkOffer o = .ok q →
    q.offer.station = o.station ∧ q.offer.code = o.code ∧ q.offer.origin = o.origin ∧
    let blocked := (s.filter.entry o.station o.code = none ∧ 16 ≤ s.filter.queue.length) ∨
      ∃ x, s.filter.entry o.station o.code = some x ∧ x.offer.origin = .override ∧ o.origin = .sequencer
    (blocked → (∀ w ∈ s.filter.waiting, w.rivals o = false) → s.offer o = s.onFilter fun f => { f with
      waiting := insertWaiting f.waiting { offer := o, since := s.timeNow } }) ∧
    (blocked → ∀ a w b p n, s.filter.waiting = a ++ w :: b → w.rivals o = true → (∀ x ∈ a ++ b, x.rivals o = false) →
      w.offer.answer = .block p n → s.offer o = (s.onFilter fun f => { f with
        waiting := a ++ { w with offer := o } :: b }).emit (.report .withdrawn p n o.code))) ∧
  ∀ (s : State) (src tag : Byte) (e : QEntry) (x : Flight) (p : Nat) (w : WEntry), s.work = [] →
    (∀ t rest, s.field.phase ≠ .window src.toNat t rest) → s.filter.matching src.toNat tag.toNat = some (e, x) →
    x.replaced = false → x.answer = .plant p → e.offer.code ≠ cSPRINKLE → s.filter.waiting = [w] → w.offer.origin ≠ .plant →
    let u := (s.dropEntry e.offer.station e.offer.code).onFilter fun f => { f with waiting := [] }
    (u.roomFor w.offer.station w.offer.code w.offer.origin = true → w.offer.code ≠ cRUN → w.offer.code ≠ cSETPOINT →
      w.offer.code ≠ cDUTYCAP → exec (.confirmTelegram src tag true) s = .next (u.onFilter fun f => { f with
        queue := f.queue ++ [{ offer := w.offer, owner := s.tables.stationOwner w.offer.station, caps := [] }] })) ∧
    (∀ q y, u.checkOffer w.offer = .ok q → u.filter.entry w.offer.station w.offer.code = some y →
      y.offer.origin = .override → w.offer.origin = .sequencer → exec (.confirmTelegram src tag true) s =
        .next (u.onFilter fun f => { f with waiting := [w] }))

/-- R154, R160: the argument with which a SETPOINT or DUTY_CAP for a kiln's burner leaves the part is within 0..c of that
kiln at the moment of delivery, whatever the queue held and whatever the interlock entries did. -/
def Obligations.BurnerDeliveryStaysWithinTheCap : Prop :=
  ∀ (s : State) (e : QEntry) (k : Fin 2) (g : KilnCfg), s.kilnCfg k = some g → e.offer.station = g.burner →
    (e.offer.code = cSETPOINT ∨ e.offer.code = cDUTYCAP) →
    0 ≤ s.deliveredArg e ∧ s.deliveredArg e ≤ (s.kiln k).cap

/-- R156: the interlock entries act in index order. The first entry that applies and refuses, or binds a RUN to a kiln
whose gate is shut, ends the walk with its index; with none, the argument that is left has been narrowed by each
applying CLAMP to its bounds and by each applying CLAMP_TO_CAP to 0..c for SETPOINT and DUTY_CAP, and the record holds
the kilns of the latter in order. A PLANT command that an entry refuses is answered INTERLOCK with the entry's index,
and counted. -/
def Obligations.InterlockWalkActsInOrder : Prop :=
  (∀ (s : State) (o : Offer) (t : Tbl Interlock) (a : Int) (cs : List (Fin 2 × Nat)),
    let stops (e : Interlock) : Prop := s.applies e o = true ∧
      (e.action = .refuse ∨ ∃ k, e.action = .clampToCap k ∧ o.code = cRUN ∧ (s.kiln k).gate = false)
    (∀ x i e y, t = x ++ (i, e) :: y → stops e → (∀ p ∈ x, ¬ stops p.2) → s.interlockWalk o t a cs = .error i) ∧
    ((∀ p ∈ t, ¬ stops p.2) → s.interlockWalk o t a cs = .ok
      ((t.filter fun p => s.applies p.2 o).foldl (fun a p => match p.2.action with
        | .clamp lo hi => if a < lo then lo else if hi < a then hi else a
        | .clampToCap k =>
          if o.code = cSETPOINT ∨ o.code = cDUTYCAP then min (max a 0) ((s.kiln k).cap : Int) else a
        | .refuse => a) a,
      cs ++ (t.filter fun p => s.applies p.2 o).filterMap fun p => match p.2.action with
        | .clampToCap k => some (k, p.1)
        | .clamp _ _ | .refuse => none))) ∧
  ∀ (s : State) (dst src code : Byte) (arg : BitVec 32) (tag : Byte) (i : Nat), s.work = [] → s.trunk.lost = false →
    s.ownAddr ≠ dst.toNat → 0 < dst.toNat → dst.toNat ≤ 63 → src.toNat = s.plantAddr → 1 ≤ code.toNat → code.toNat ≤ 12 →
    code.toNat ≠ cRUN → code.toNat ≠ cSETPOINT → code.toNat ≠ cDUTYCAP →
    (s.tables.station.get dst.toNat).isSome = true → s.modeAllows dst.toNat .plant = true →
    s.interlockWalk { station := dst.toNat, code := code.toNat, arg := arg.toInt, origin := .plant, answer := .plant tag.toNat }
      s.tables.interlock arg.toInt [] = .error i →
    exec (.trunkCommand dst src code arg tag) s = .next (((s.onTrunk fun t => { t with
      silence := some s.silenceTenths }).onFilter fun f => { f with refused := min max16 (f.refused + 1) }).refuse dst.toNat
        code.toNat tag.toNat .interlock i)

/-! ## Vessels and their timers (chapters 2 to 5) -/

/-- R40, R106, R110: the expiry of a steep's or compartment's watch timer stops it, sets BLIND and posts the BLIND notice
with the watch interval, and changes nothing else; that it is the interval committed at the expiry is the model's choice
(assumption 100). A kiln that becomes BLIND has its cap brought under the BLIND cap at
once, and keeps its grant. -/
def Obligations.WatchExpiryBlindsTheVessel : Prop :=
  (∀ (s : State) (v : Fin 12) (n : Nat), s.work = [] → v.val < 10 → (s.vessel v).watch = some 0 →
    s.tables.vessel.watchOf v = some n →
    exec (.watchTimerExpiry v) s =
      .next ((s.onVessel v fun r => { r with watch := none, blind := true }).post .blind .vessel v.val 0 n)) ∧
  ∀ (s : State) (k : Fin 2), ((s.kilnBlinded k).kiln k).cap = min (s.kiln k).cap (s.blindCap k) ∧
    ((s.kilnBlinded k).kiln k).grant = (s.kiln k).grant ∧ ((s.kilnBlinded k).kiln k).phase = (s.kiln k).phase ∧
    (s.kilnBlinded k).kiln (other k) = s.kiln (other k)

/-- R46, R50 to R54, R57: the phase timer of a REST without the weigh flag, a DRAIN or an immersion ends the phase,
with STOP to the aeration where it runs, and the phase at the next index starts with its commands of SEQUENCER origin:
a WET closes the drain, opens the fill, sets the water and waits FILLING for the full level; a DRAIN opens the drain
and waits for the empty level; both stop the fan; a REST runs and sets the fan and loads its duration. The fan
commands are withheld while CO2 holds the fan (R55). That a phase which starts in the phase state that the steep already
has, as a REST after a REST, posts no notice is the model's choice (assumption 30). Here
the level is not yet there. A REST with the weigh flag passes into WEIGHING with the settle time, and the end of the
settle time opens the weighing window of 60 s. A weighing window that expires puts the steep into HOLD with
WEIGH_TIMEOUT and its notices, and changes nothing else: the account, the phase and the command queue stay. A fill or
drain that is not done in time puts it into HOLD with its code, keeps the phase, and closes the valve that was open
with a CLOSE of OVERRIDE origin. -/
def Obligations.SteepTimersEndTheirWaits : Prop :=
  (∀ (s : State) (i : Fin 4), s.work = [] → s.steepMode i = .auto → s.steepBlind i = false →
    (∀ f w, (s.steep i).phase = .resting → (s.steep i).phaseTimer = some 0 → (s.steep i).fields = some f →
      f.weigh = true → s.steepWide i = some w →
      exec (.steepPhaseTimerExpiry i) s = .next ((s.onSteep i fun x => { x with
        phase := .weighing, phaseTimer := none, wait := some (.settle, w.settle * 10) }).postVessel .phase (steepNo i) 6
          (s.steep i).index)) ∧
    ((s.steep i).wait = some (.settle, 0) →
      exec (.weighSettleEnd i) s = .next (s.onSteep i fun x => { x with wait := some (.window, 600) }))) ∧
  (∀ (s u : State) (i : Fin 4) (g : SteepCfg) (w : SteepWide) (f : SteepPhase), s.work = [] → s.steepMode i = .auto →
    s.steepBlind i = false → (s.steep i).phaseTimer = some 0 → s.steepCfg i = some g → s.steepWide i = some w →
    let n := (s.steep i).index + 1
    let v : Fin 12 := steepNo i
    let old := (s.steep i).phase
    let airs : Prop := ∃ p, (s.steep i).fields = some p ∧ p.aeration = true
    let room (y : State) (st c : Nat) : Prop := y.roomFor st c .sequencer = true
    let told (y : State) (st c : Nat) : State := y.queued st c y.noArg .sequencer (.vessel v)
    let set (y : State) (st : Nat) (a : Int) : State := y.queued st cSETPOINT a .sequencer (.vessel v)
    let enters (y : State) (p : SteepState) (code : Nat) (t : Timer) (z : Option (WaitFor × Nat)) : State :=
      let y1 := y.onSteep i fun x => { x with phase := p, phaseTimer := t, wait := z }
      if old = p then y1 else y1.post .phase .vessel v.val code n
    (s.steepPhases i)[n]? = some f →
    ((u = s ∧ ((old = .resting ∧ ∀ p, (s.steep i).fields = some p → p.weigh = false) ∨ old = .draining ∨
        (old = .immersed ∧ (g.aerate = none ∨ ¬airs)))) ∨
      (old = .immersed ∧ airs ∧ ∃ a, g.aerate = some a ∧ room s a cSTOP ∧ u = told s a cSTOP)) →
    u.filter.queue.length ≤ 12 →
    let b := u.onSteep i fun x => { x with index := n, fields := some f, phaseTimer := none, wait := none, drained := false }
    let still (y : State) : State := if (s.steep i).co2Hold = true then y else told y g.fan cSTOP
    let stills : Prop := (s.steep i).co2Hold = true ∨ room u g.fan cSTOP
    (f.kind = .wet → stills → room u g.drain cCLOSE → room u g.fill cOPEN →
      (∀ x, s.usableRole (.vessel v) .level = some x → x < g.full) →
      let o := told (told b g.drain cCLOSE) g.fill cOPEN
      let filled (y : State) : Prop := exec (.steepPhaseTimerExpiry i) s =
        .next (enters (still y) .filling 2 none (some (.fill, w.fillTimeout * 600)))
      (g.water = none → filled o) ∧
      (∀ st, g.water = some st → room u st cSETPOINT → s.burnerGuard st cSETPOINT f.water = f.water →
        filled (set o st f.water))) ∧
    (f.kind = .drain → stills → room u g.drain cOPEN → (∀ x, s.usableRole (.vessel v) .level = some x → g.empty < x) →
      exec (.steepPhaseTimerExpiry i) s =
        .next (enters (still (told b g.drain cOPEN)) .draining 4 none (some (.drain, w.drainTimeout * 600)))) ∧
    (f.kind = .rest → ((s.steep i).co2Hold = true ∨ (room u g.fan cRUN ∧ room u g.fan cSETPOINT ∧
        s.peatShut g.fan cRUN = false ∧ s.burnerGuard g.fan cSETPOINT f.fan = f.fan)) →
      exec (.steepPhaseTimerExpiry i) s = .next (enters
        (if (s.steep i).co2Hold = true then b else set (told b g.fan cRUN) g.fan f.fan)
        .resting 5 (some (f.duration * 600)) none))) ∧
  ∀ (s : State) (i : Fin 4), s.work = [] → s.steepMode i = .auto → (s.vessel (steepNo i)).fault = none →
    s.filter.waiting = [] →
    let held (c : FaultCode) : State :=
      (((s.onSteep i fun x => { x with wait := none }).onVessel (steepNo i) fun r => { r with
        mode := .hold, fault := some c }).post .fault .vessel i.val c.code (s.steep i).index).post .mode .vessel i.val 3 2
    (((s.steep i).phase = .weighing ∧ (s.steep i).wait = some (.window, 0)) →
      exec (.weighWindowExpiry i) s = .next (held .weighTimeout)) ∧
    ∀ g, s.steepCfg i = some g →
      (((s.steep i).phase = .filling ∧ (s.steep i).wait = some (.fill, 0) ∧ s.roomFor g.fill cCLOSE .override = true) →
        exec (.fillTimeout i) s =
          .next ((held .fillTimeout).queued g.fill cCLOSE s.noArg .override (.vessel (steepNo i)))) ∧
      (((s.steep i).phase = .draining ∧ (s.steep i).drained = false ∧ (s.steep i).wait = some (.drain, 0) ∧
          s.roomFor g.drain cCLOSE .override = true) →
        exec (.drainTimeout i) s =
          .next ((held .drainTimeout).queued g.drain cCLOSE s.noArg .override (.vessel (steepNo i))))

/-- R51, R52, R57: in AUTO a LEVEL delivery at or above the full level ends FILLING: CLOSE to the fill valve and the
aeration command are offered, and the steep is IMMERSED with its phase timer loaded and its notice. One at or below
the empty level in DRAINING closes the drain valve and starts the phase timer. Any other level, and any in another
mode, changes nothing; here no running transfer reads the level. -/
def Obligations.SteepLevelsMoveThePhases : Prop :=
  ∀ (s : State) (n : Nat) (e : MpEntry) (x : MpValue) (i : Fin 4) (g : SteepCfg), e.owner = .vessel (steepNo i) →
    e.role = .level → s.mpOf (.vessel (steepNo i)) .level = some n → s.steepCfg i = some g →
    (∀ r, s.transfer.running = some r → r.source ≠ steepNo i) →
    let y := s.steep i
    let closed (st : Nat) : State := s.queued st cCLOSE s.noArg .sequencer (.vessel (steepNo i))
    let timer : Timer := y.fields.map fun f => f.duration * 600
    let immersed (u : State) : State := (u.onSteep i fun z => { z with
      wait := none, phaseTimer := timer, phase := .immersed }).post .phase .vessel i.val 3 y.index
    (s.steepMode i ≠ .auto → s.deliver n e x = s) ∧
    (s.steepMode i = .auto → y.phase = .filling →
      (x.val < g.full → s.deliver n e x = s) ∧
      ((g.full : Int) ≤ x.val → s.roomFor g.fill cCLOSE .sequencer = true →
        (g.aerate = none → s.deliver n e x = immersed (closed g.fill)) ∧
        (∀ a f, g.aerate = some a → y.fields = some f → a ≠ g.fill → s.filter.queue.length < 15 →
          let c := if f.aeration then cRUN else cSTOP
          s.roomFor a c .sequencer = true → s.peatShut a c = false → s.deliver n e x =
            immersed ((closed g.fill).queued a c (closed g.fill).noArg .sequencer (.vessel (steepNo i)))))) ∧
    (s.steepMode i = .auto → y.phase = .draining → y.drained = false →
      ((g.empty : Int) < x.val → s.deliver n e x = s) ∧
      (x.val ≤ g.empty → s.roomFor g.drain cCLOSE .sequencer = true → s.deliver n e x =
        (closed g.drain).onSteep i fun z => { z with wait := none, phaseTimer := timer, drained := true }))

/-- R36, R66, R70, R71: a stage timer that expires before the last stage starts the next one: the fields, the notice,
the stage high limit of every bed probe, the stage timer, the interval timer while no demand stands, and the air and
fan commands; here the compartment has no bed probe for the whole next state, which posts the notice first (the
model's choice, assumption 72). A stage timer that expires in the last stage makes the compartment READY with its
notice, stops the interval timer, removes a demand that no turner has, and posts the LOAD request; a running transfer
keeps the arbiter from scanning. An interval timer that expires stops and raises a SCHEDULED demand, which stays
pending while no turner is IDLE. -/
def Obligations.CompartmentTimersEndTheirWaits : Prop :=
  ∀ (s : State) (c : Fin 6), s.work = [] → s.compTimersRun c = true →
    ((s.comp c).stageTimer = some 0 → (s.germStages c)[(s.comp c).index + 1]? = none →
      s.transfer.running.isSome = true → s.hasRequest (compNo c) = false →
      exec (.stageTimerExpiry c) s = .next (((s.onComp c fun x => { x with
        phase := .ready, stageTimer := none, interval := none
        demand := x.demand.filter fun d => d.turner.isSome }).post .phase .vessel (compNo c).val 3
          (s.comp c).index).onTransfer fun _ => s.requested .load (compNo c) none)) ∧
    (∀ f, (s.comp c).stageTimer = some 0 → (s.germStages c)[(s.comp c).index + 1]? = some f →
      let n := (s.comp c).index + 1
      let v : Fin 12 := compNo c
      let t := s.stageExpires c
      ((t.comp c).index = n ∧ (t.comp c).fields = some f ∧ (t.comp c).phase = .germinating ∧
        (t.comp c).stageTimer = some (f.duration * 600) ∧
        (s.tables.mp.wf = true → ∀ m e, s.tables.mp.get m = some e → e.owner = .vessel v → e.role.bed = true →
          (t.live m).stageHigh = f.bedHigh)) ∧
      ∀ k, s.compCfg c = some k → (∀ e ∈ s.tables.mp, e.2.owner = .vessel v → e.2.role.bed = false) → k.air ≠ k.fan →
        s.filter.queue.length < 14 → s.roomFor k.air cSETPOINT .sequencer = true →
        s.roomFor k.fan cRUN .sequencer = true → s.roomFor k.fan cSETPOINT .sequencer = true →
        s.burnerGuard k.air cSETPOINT f.air = f.air → s.burnerGuard k.fan cSETPOINT f.fan = f.fan →
        s.peatShut k.fan cRUN = false →
        let a := (((s.onComp c fun x => { x with
          index := n, fields := some f, stageTimer := some (f.duration * 600)
          interval := if x.demand = none ∧ f.interval ≠ 0 then some (f.interval * 600) else none }).post .phase .vessel v.val
            2 n).queued k.air cSETPOINT f.air .sequencer (.vessel v))
        let b := a.queued k.fan cRUN a.noArg .sequencer (.vessel v)
        exec (.stageTimerExpiry c) s = .next (b.queued k.fan cSETPOINT f.fan .sequencer (.vessel v))) ∧
    ((s.comp c).interval = some 0 → (s.comp c).demand = none → (s.turner 0).state ≠ .idle → (s.turner 1).state ≠ .idle →
      exec (.intervalTimerExpiry c) s = .next (s.onComp c fun x => { x with
        interval := none, demand := some { kind := .scheduled, time := s.timeNow, turner := none } }))

/-- R81, R82: a move or pass timer that expires faults the turner with its cause and its notice, stops its drive,
returns the demand it was granted, and counts the first fault of its compartment with a FAULT notice and without a
vessel fault. The order of these steps and of their notices is the model's inference (assumption 32). -/
def Obligations.TurnerTimeoutsFaultTheTurner : Prop :=
  ∀ (s : State) (t : Fin 2) (n : Fin 6) (g : TurnerCfg), s.work = [] → (s.turner t).assigned = some n →
    s.turnerCfg t = some g → s.roomFor g.drive cSTOP .sequencer = true → (s.comp n).faults = 0 →
    (s.turner (other t)).state ≠ .idle →
    let faulted (c : TurnerCause) : State :=
      (((((s.queued g.drive cSTOP s.noArg .sequencer (.drive t)).onTurner t fun x => { x with
        state := .fault, cause := some c, moveTimer := none, passTimer := none, faultReport := none }).post .turner .turner
          t.val 6 c.code).onComp n fun x => { x with faults := 1 }).post .fault .vessel (compNo n).val 4
            (s.comp n).index).onComp n fun x => { x with
              demand := x.demand.map fun d => if d.turner = some t then { d with turner := none } else d }
    (((s.turner t).state = .moving ∧ (s.turner t).moveTimer = some 0) →
      exec (.moveTimerExpiry t) s = .next (faulted .moveTimeout)) ∧
    ((((s.turner t).state = .passOut ∨ (s.turner t).state = .passBack) ∧ (s.turner t).passTimer = some 0) →
      exec (.passTimerExpiry t) s = .next (faulted .passTimeout))

/-- R79, R80, R83, R84, R86: each delivery of a turner's encoder adds its delta to the pass position, limited to 0..L
with the clamp counted. The marker's rise with the delta at or below 0 sets the position to 0, and posts SLIP for a
homed turner that stood beyond the marker tolerance; with a delta above 0 it is counted as ambiguous. PASS_OUT at the
end tolerance turns into PASS_BACK with its command and notice; PASS_BACK at the tolerance completes: the turner stops
and is IDLE, the demand and the fault count are cleared and the interval timer reloaded. A back-run that meets the
marker makes the homing turner IDLE, and the second answers TURNER HOME with OK. L of a turner whose compartment's
entry has been emptied is the model's choice (assumption 57), and so is the OK where the first turner is no longer IDLE
(assumption 71). The marker's rise in a pass is left out. Here the bed is not hot, no other demand waits and the
arbiter has nothing to scan. -/
def Obligations.EncoderTracksThePass : Prop :=
  ∀ (s : State) (t : Fin 2) (n : Nat) (e : MpEntry) (v : MpValue) (g : TurnerCfg), e.owner = .turner t →
    e.role = .turnerEncoder → s.mpOf (.turner t) .turnerEncoder = some n → s.turnerCfg t = some g →
    let x := s.turner t
    let sum : Int := x.pass + v.val
    let p : Nat := (min (max sum 0) (s.passBound t : Int)).toNat
    let clamps := if 0 ≤ sum ∧ sum ≤ s.passBound t then x.clamps else min max16 (x.clamps + 1)
    let at_ (u : State) (q : Nat) (m : Bool) : State := u.onTurner t fun y => { y with pass := q, clamps := clamps, marker := m }
    let rises := v.marker = true ∧ x.marker = false
    let resting := x.state = .unhomed ∨ x.state = .idle ∨ x.state = .moving ∨ x.state = .fault
    (resting →
      (¬ rises → s.deliver n e v = at_ s p v.marker) ∧
      (rises → 0 < v.val → s.deliver n e v =
        (at_ s p true).onTurner t fun y => { y with ambiguous := min max16 (y.ambiguous + 1) }) ∧
      (rises → v.val ≤ 0 →
        ((x.position = none ∨ p ≤ g.markTol) → s.deliver n e v = at_ s 0 true) ∧
        (x.position.isSome = true → g.markTol < p → s.deliver n e v =
          ((at_ s 0 false).post .slip .turner t.val 0 p).onTurner t fun y => { y with
            slips := min max16 (y.slips + 1), marker := true }))) ∧
    (¬ rises → ∀ c, x.assigned = some c →
      (x.state = .passOut →
        (p + g.endTol < x.passLength → s.deliver n e v = at_ s p v.marker) ∧
        (x.passLength ≤ p + g.endTol → s.roomFor g.drive cBACK .sequencer = true → s.deliver n e v =
          (((at_ s p v.marker).queued g.drive cBACK s.noArg .sequencer (.drive t)).onTurner t fun y =>
            { y with state := .passBack }).post .turner .turner t.val 5 (compNo c).val)) ∧
      (x.state = .passBack →
        (g.endTol < p → s.deliver n e v = at_ s p v.marker) ∧
        (p ≤ g.endTol → s.work = [] → s.roomFor g.drive cSTOP .sequencer = true → s.bedHot c = false → s.noScan = true →
          (∀ d, d ≠ c → (s.comp d).demand = none) → (s.deliver n e v).settle =
            ((((at_ s p v.marker).queued g.drive cSTOP s.noArg .sequencer (.drive t)).onTurner t fun y => { y with
              state := .idle, assigned := none, passTimer := none }).post .turner .turner t.val 2
                (x.position.getD 255 : Nat)).onComp c fun y => { y with
                  demand := none, faults := 0
                  interval := if y.phase = .germinating ∧ y.index ≠ 255
                    then y.fields.bind fun f => if f.interval = 0 then none else some (f.interval * 600)
                    else y.interval }))) ∧
    (x.state = .homing → x.target = none → rises → v.val ≤ 0 → s.roomFor g.drive cSTOP .sequencer = true →
      (∀ d, (s.comp d).demand = none) →
      let idle := (((at_ s 0 true).queued g.drive cSTOP s.noArg .sequencer (.drive t)).onTurner t fun y => { y with
        state := .idle, passTimer := none }).post .turner .turner t.val 2 (x.position.getD 255 : Nat)
      ∀ q, s.mgmt.plant = some q → q.cls = 4 → q.code = 1 →
        let q' := if t = 0 then { q with home0 := true } else { q with home1 := true }
        let told := idle.onMgmt fun m => { m with plant := some q' }
        ((q'.home0 = false ∨ q'.home1 = false) → s.deliver n e v = told) ∧
        (q'.home0 = true → q'.home1 = true → s.deliver n e v = told.endLong .plant .ok 0))

/-- R99, R100: at a minute mark a point without a usable reading breaks the run of minutes and keeps the ring; a usable one
joins the ring of at most six, and a full ring counts the minute or sets the count to 0; the third counting minute declares
the break with its notice. -/
def Obligations.BreakPointsBuildTheRing : Prop :=
  ∀ (s : State) (k : Fin 2) (f : KilnStage), s.work = [] → s.minuteDue k = true → (s.kiln k).fields = some f →
    f.endKind ≠ .brk →
    let x := s.kiln k
    let m := s.onKiln k fun y => { y with minutes := y.minutes + 1 }
    (s.usableRole (.vessel (kilnNo k)) .airOffTemp = none →
      exec (.breakPoint k) s = .next (m.onKiln k fun y => { y with streak := 0 })) ∧
    (∀ v, s.usableRole (.vessel (kilnNo k)) .airOffTemp = some v →
      let ring := (if x.ring.length = 6 then x.ring.drop 1 else x.ring) ++ [v]
      let r := m.onKiln k fun y => { y with ring := ring }
      (x.ring.length < 5 → exec (.breakPoint k) s = .next r) ∧
      (∀ a w, (x.ring.length = 5 ∨ x.ring.length = 6) → ring[0]? = some a → s.moistureAt (kilnNo k) = some w →
        ((v - a < f.breakRise ∨ f.breakCeiling < w) →
          exec (.breakPoint k) s = .next (r.onKiln k fun y => { y with streak := 0 })) ∧
        (f.breakRise ≤ v - a → w ≤ f.breakCeiling →
          (x.streak + 1 < 3 ∨ x.declared = true →
            exec (.breakPoint k) s = .next (r.onKiln k fun y => { y with streak := y.streak + 1 })) ∧
          (3 ≤ x.streak + 1 → x.declared = false →
            exec (.breakPoint k) s = .next ((r.onKiln k fun y => { y with
              streak := y.streak + 1, declared := true }).post .phase .vessel (kilnNo k).val 7 (v - a))))))

/-- R95, R96: at the minimum duration the end test is made once, and a condition that is not met leaves the stage running; a
condition that is met ends the stage. At the maximum duration a last stage of kind MOISTURE, BREAK or AIR_OFF whose
condition is not met posts STAGE_LIMIT, sets the limit-ended flag and faults with STAGE_LIMIT; grant and cap stay. -/
def Obligations.FiringTimeEndsTheStage : Prop :=
  ∀ (s : State) (k : Fin 2) (f : KilnStage), s.work = [] → (s.kiln k).fields = some f →
    (s.kiln k).firing / 600 ≤ (s.kiln k).minutes →
    let m := s.onKiln k fun x => { x with minTaken := true }
    (s.minimumDue k = true →
      (s.endMet k f = false → exec (.firingTimeMinimum k) s = .next m) ∧
      (s.endMet k f = true → exec (.firingTimeMinimum k) s = .next (m.kilnStageEnds k).settle)) ∧
    (s.maximumDue k = true → f.minDur ≤ f.maxDur → s.endMet k f = false →
      (s.kilnStages k)[(s.kiln k).index + 1]? = none → f.endKind ≠ .time → (s.vessel (kilnNo k)).fault = none →
      s.filter.waiting = [] →
      exec (.firingTimeMaximum k) s = .next ((((((m.post .stageLimit .vessel (kilnNo k).val f.endKind.code
        (s.kiln k).index).onKiln k fun x => { x with limitEnded := true }).onVessel (kilnNo k) fun r => { r with
          mode := .hold, fault := some .stageLimit }).post .fault .vessel (kilnNo k).val 5 (s.kiln k).index).post .mode
            .vessel (kilnNo k).val 3 2)))

/-- R92, R93, R97, R102, R103, R106, R111: a stage starts, at a stage end with a next stage in the committed program
or with stage 0 of a batch, from an empty ring and a firing time of 0; in AUTO it fires with the lesser of its request
and the budget less the other grant, or waits for heat with the grant 0 below its minimum duty, and out of AUTO it
fires with the grant as it was. Its hard air-on limit is the stage high limit of every AIR_ON_TEMP MP, and the peat
gate is open in FIRING where the stage permits peat and M is at its floor or above. Where the kiln has no AIR_ON_TEMP
MP and peat stays shut, the next state is given whole: the notice, the cap under the new grant, and the commands for
air, fan and burner. A fall of one kiln's grant makes the other re-evaluate: waiting for heat it fires once its
minimum duty fits, from a firing time of 0, with RUN and SETPOINT to its burner, and firing below its request it takes more. That the
offers of the kiln whose grant falls stand before those of the other kiln is the model's inference (assumption 31). A
stage end beyond the committed program takes the kiln into COOLING with its grant and cap at 0, its gate shut, its step timer stopped
and the cool timer loaded. A cool timer that expires stops the fan, makes the kiln READY_STRIP and posts the STRIP
request with the malt store as destination; a running transfer keeps the arbiter from scanning. That a stage with the
grant 0 offers RUN to its burner is the model's choice (assumption 66). That a kiln which a re-entry to AUTO has sent to
WAIT_HEAT starts its firing time from 0 as well, with its minute marks and its minimum, and keeps its break ring, is the
model's inference (assumption 67). -/
def Obligations.KilnStagesStartAndCool : Prop :=
  (∀ (s t : State) (k : Fin 2) (n : Nat) (f : KilnStage),
    (((s.kilnStages k)[(s.kiln k).index + 1]? = some f ∧ n = (s.kiln k).index + 1 ∧ t = s.kilnStageEnds k) ∨
      ((s.kilnStages k)[0]? = some f ∧ n = 0 ∧ t = s.kilnBegin k)) →
    let x := t.kiln k
    let r := min f.request (s.budget - (s.kiln (other k)).grant)
    x.index = n ∧ x.fields = some f ∧ x.ring = [] ∧ x.streak = 0 ∧ x.declared = false ∧ x.limitEnded = false ∧
      x.firing = 0 ∧
      (s.tables.mp.wf = true → ∀ m e, s.tables.mp.get m = some e → e.owner = .vessel (kilnNo k) → e.role = .airOnTemp →
        (t.live m).stageHigh = f.airHigh) ∧
      (x.gate = true ↔ x.phase = .firing ∧ f.peat = true ∧ ∃ w, s.moistureAt (kilnNo k) = some w ∧ f.peatFloor ≤ w) ∧
      (s.kilnMode k = .auto → f.minDuty ≤ r → x.phase = .firing ∧ x.grant = r) ∧
      (s.kilnMode k = .auto → r < f.minDuty → x.phase = .waitHeat ∧ x.grant = 0) ∧
      (s.kilnMode k ≠ .auto → x.phase = .firing ∧ x.grant = (s.kiln k).grant)) ∧
  (∀ (s : State) (k : Fin 2) (g : KilnCfg) (e f : KilnStage), s.work = [] → (s.kiln k).fields = some e →
    (s.kiln k).firing / 600 ≤ (s.kiln k).minutes → s.minimumDue k = true → s.endMet k e = true →
    (s.kilnStages k)[(s.kiln k).index + 1]? = some f → s.kilnCfg k = some g →
    (∀ z ∈ s.tables.mp, z.2.owner = .vessel (kilnNo k) → z.2.role ≠ .airOnTemp) → f.peat = false →
    (s.kiln k).gate = false → (s.kiln k).cap ≤ (s.kiln k).grant → g.air ≠ g.fan → g.burner ≠ g.air → g.burner ≠ g.fan →
    (∀ h, s.kilnCfg (other k) = some h → h.burner ≠ g.air ∧ h.burner ≠ g.fan ∧ h.burner ≠ g.burner ∧
      h.peat ≠ some g.fan ∧ h.peat ≠ some g.burner) → g.peat ≠ some g.fan → g.peat ≠ some g.burner →
    s.filter.queue.length ≤ 10 → s.roomFor g.air cSETPOINT .sequencer = true → s.roomFor g.fan cRUN .sequencer = true →
    s.roomFor g.fan cSETPOINT .sequencer = true → s.roomFor g.burner cSETPOINT .sequencer = true →
    let v : Fin 12 := kilnNo k
    let n := (s.kiln k).index + 1
    let y := s.kiln k
    let r := min f.request (s.budget - (s.kiln (other k)).grant)
    let starts (p : KilnState) (code grant cap : Nat) (step : Option (StepDir × Nat)) : State :=
      (s.onKiln k fun x => { x with
        index := n, fields := some f, ring := [], streak := 0, declared := false, limitEnded := false, firing := 0
        minutes := 0, minTaken := false, phase := p, grant := grant, cap := cap, step := step }).post .phase .vessel v.val
          code n
    let capped (u : State) (c : Nat) : State := u.queued g.burner cDUTYCAP c .override (.vessel v)
    let aired (u : State) : State :=
      let a := u.queued g.air cSETPOINT f.air .sequencer (.vessel v)
      (a.queued g.fan cRUN a.noArg .sequencer (.vessel v)).queued g.fan cSETPOINT f.fan .sequencer (.vessel v)
    let fired (u : State) (c : Nat) : Prop :=
      let a := aired u
      exec (.firingTimeMinimum k) s = .next ((a.queued g.burner cRUN a.noArg .sequencer (.vessel v)).queued g.burner
        cSETPOINT c .sequencer (.vessel v))
    (r < f.minDuty → y.grant = 0 → exec (.firingTimeMinimum k) s =
      .next ((aired (starts .waitHeat 2 0 0 y.step)).queued g.burner cSETPOINT 0 .sequencer (.vessel v))) ∧
    (f.minDuty ≤ r → s.roomFor g.burner cRUN .sequencer = true →
      (r = y.grant → fired (starts .firing 3 r y.cap y.step) y.cap) ∧
      (y.grant < r → y.thermal ≠ .clear → fired (starts .firing 3 r y.cap y.step) y.cap) ∧
      (y.grant < r → y.thermal = .clear → y.cap = y.grant → s.kilnBlind k = false →
        s.roomFor g.burner cDUTYCAP .override = true → fired (capped (starts .firing 3 r r none) r) r) ∧
      (r < y.grant → s.regrants (other k) = false → y.thermal = .hot → y.cap ≤ r →
        fired (starts .firing 3 r y.cap y.step) y.cap))) ∧
  (∀ (s : State) (k : Fin 2) (a : Nat) (f : KilnStage), a < (s.kiln k).grant → (s.kiln (other k)).fields = some f →
    let y := s.kiln (other k)
    let t := s.changeGrant k a
    let r := min f.request (s.budget - a)
    let auto := s.kilnMode (other k) = .auto
    (t.kiln k).grant = a ∧ (t.kiln k).cap = min (s.kiln k).cap a ∧
    (auto → y.phase = .waitHeat → y.index ≠ 255 → f.minDuty ≤ r →
      (t.kiln (other k)).phase = .firing ∧ (t.kiln (other k)).grant = r ∧ (t.kiln (other k)).firing = 0 ∧
      (t.kiln (other k)).minutes = 0 ∧ (t.kiln (other k)).minTaken = false ∧ (t.kiln (other k)).ring = y.ring ∧
      ∀ g, s.kilnCfg (other k) = some g → y.thermal = .clear → s.kilnBlind (other k) = false → y.cap = 0 → y.grant = 0 →
        y.gate = false → f.peat = false → 0 < r →
        let v : Fin 12 := kilnNo (other k)
        let u := s.setGrant k a
        (∀ h, s.kilnCfg k = some h → h.burner ≠ g.burner ∧ h.peat ≠ some g.burner) →
        g.peat ≠ some g.burner → u.filter.queue.length < 14 → u.roomFor g.burner cDUTYCAP .override = true →
        u.roomFor g.burner cRUN .sequencer = true → u.roomFor g.burner cSETPOINT .sequencer = true →
        let b := ((u.onKiln (other k) fun z => { z with
          phase := .firing, firing := 0, minutes := 0, minTaken := false, grant := r, cap := r, step := none }).post .phase
          .vessel v.val 3 y.index).queued g.burner cDUTYCAP r .override (.vessel v)
        t = (b.queued g.burner cRUN b.noArg .sequencer (.vessel v)).queued g.burner cSETPOINT r .sequencer (.vessel v)) ∧
    (auto → y.phase = .firing → y.grant < f.request → (t.kiln (other k)).phase = .firing ∧
      (t.kiln (other k)).grant = max y.grant r) ∧
    ((¬auto ∨ (y.phase = .waitHeat ∧ (y.index = 255 ∨ r < f.minDuty)) ∨ (y.phase = .firing ∧ f.request ≤ y.grant) ∨
      (y.phase ≠ .waitHeat ∧ y.phase ≠ .firing)) → t.kiln (other k) = y)) ∧
  (∀ (s : State) (k : Fin 2) (w : KilnWide), (s.kilnStages k)[(s.kiln k).index + 1]? = none → s.kilnWide k = some w →
    (s.kiln k).cap ≤ (s.kiln k).grant →
    let t := s.kilnStageEnds k
    (t.kiln k).phase = .cooling ∧ (t.kiln k).index = (s.kiln k).index ∧ (t.kiln k).grant = 0 ∧ (t.kiln k).cap = 0 ∧
      (t.kiln k).gate = false ∧ (t.kiln k).step = none ∧ (t.kiln k).cool = some (w.coolDur * 600) ∧
      (t.kiln k).limitEnded = false ∧ t.kiln (other k) = (s.changeGrant k 0).kiln (other k)) ∧
  ∀ (s : State) (k : Fin 2) (g : KilnCfg), s.work = [] → (s.kiln k).cool = some 0 → s.coolRuns k = true →
    s.kilnCfg k = some g → s.roomFor g.fan cSTOP .sequencer = true → s.transfer.running.isSome = true →
    s.hasRequest (kilnNo k) = false →
    exec (.coolTimerExpiry k) s = .next ((((s.queued g.fan cSTOP s.noArg .sequencer (.vessel (kilnNo k))).onKiln k fun x =>
      { x with phase := .readyStrip, cool := none }).post .phase .vessel (kilnNo k).val 5 (s.kiln k).index).onTransfer
        fun _ => s.requested .strip (kilnNo k) (some 12))

/-- R106, R108: a step timer that runs down steps the cap of a HOT kiln down by one and is loaded with the override interval;
one that runs up steps the cap of a CLEAR kiln below its target up by one, and is loaded with the recovery interval while
the cap is still below. Each change is told to the burner by DUTY_CAP of OVERRIDE origin; the grant stays. -/
def Obligations.StepTimerMovesTheCap : Prop :=
  ∀ (s : State) (k : Fin 2) (g : KilnCfg) (w : KilnWide), s.work = [] → s.kilnCfg k = some g → s.kilnWide k = some w →
    s.kilnMode k ≠ .off → (s.kiln k).index ≠ 255 → s.roomFor g.burner cDUTYCAP .override = true →
    (s.kilnCfg (other k)).map (·.burner) ≠ some g.burner →
    let stepped (c : Nat) (d : Option (StepDir × Nat)) : State :=
      (s.onKiln k fun x => { x with cap := c, step := d }).queued g.burner cDUTYCAP c .override (.vessel (kilnNo k))
    ((s.kiln k).step = some (.down, 0) → (s.kiln k).thermal = .hot → 0 < (s.kiln k).cap →
      exec (.stepTimerExpiry k) s = .next (stepped ((s.kiln k).cap - 1) (some (.down, w.overrideInt * 10)))) ∧
    ((s.kiln k).step = some (.up, 0) → (s.kiln k).thermal = .clear → (s.kiln k).cap < s.capTarget k →
      exec (.stepTimerExpiry k) s = .next (stepped ((s.kiln k).cap + 1)
        (if (s.kiln k).cap + 1 < s.capTarget k then some (.up, w.recoveryInt * 10) else none)))

/-- R112: a PEAT_STATE delivery of a kiln that holds a batch: running, it credits the time since the recorded running
time, at most 60 s, to the batch's peat seconds, keeps the tenths left over, and records its own time; any other value
makes the recorded time absent. A kiln without a batch records the value alone. That the time since is taken modulo 2^32
is the model's choice (assumption 95). -/
def Obligations.PeatIsTracked : Prop :=
  ∀ (s : State) (n : Nat) (e : MpEntry) (v : MpValue) (k : Fin 2), e.owner = .vessel (kilnNo k) → e.role = .peatState →
    s.mpOf (.vessel (kilnNo k)) .peatState = some n →
    (s.batchAt (kilnNo k) = none → s.deliver n e v = s.onKiln k fun y => { y with peat := some v.val }) ∧
    (∀ m b, s.batchAt (kilnNo k) = some (m, b) →
      (v.val ≠ 1 → s.deliver n e v = s.onKiln k fun y => { y with peat := some v.val, peatTime := none }) ∧
      (v.val = 1 →
        let gained := match (s.kiln k).peatTime with
          | some t => min 600 ((s.timeNow + timeModulus - t) % timeModulus)
          | none => 0
        let sum := (s.kiln k).peatRem + gained
        s.deliver n e v = (s.onSlot m fun c => { c with peatSeconds := min max32 (c.peatSeconds + sum / 10) }).onKiln k
          fun y => { y with peat := some v.val, peatRem := sum % 10, peatTime := some s.timeNow }))

/-! ## The transfer run's timers (R124, R125, R127, R128, R131) -/

/-- R124, R125, R127, R128, R131: a route or draw timer that expires begins an abort with its cause: the timers stop,
an outstanding draw is dropped, and STOP is offered to the route's station with OVERRIDE origin. A no-flow timer that
expires stalls the transfer with its notice; a run-on timer that expires with draws still to complete leaves it
CLEARING. That the begin of an abort posts no notice is the model's choice (assumption 36). -/
def Obligations.TransferTimersEndTheirWaits : Prop :=
  ∀ (s : State) (r : Running), s.work = [] → s.transfer.running = some r →
    (∀ leg, r.route = [leg] → s.roomFor leg.step.station cSTOP .override = true →
      (r.state = .routing → r.routeTimer = some 0 →
        exec .routeTimerExpiry s = .next (s.aborting r leg .routeTimeout)) ∧
      ((r.state = .running ∨ r.state = .stalled ∨ r.state = .clearing) → r.draw = some 0 →
        exec .drawTimerExpiry s = .next (s.aborting r leg .drawTimeout))) ∧
    (r.noFlow = some 0 → exec .noFlowTimerExpiry s = .next ((s.onTransfer fun u => { u with
      running := some { r with state := .stalled, noFlow := none } }).post .transfer .transfer r.source.val 2
        ((r.mass / 1000 : Nat) : Int))) ∧
    (r.runOn = some 0 → (r.out.isSome = true ∨ r.next < r.points.length) → exec .runOnTimerExpiry s =
      .next (s.onTransfer fun u => { u with running := some { r with runOn := none, ranOn := true } }))

/-- R123, R125 to R127: a weigher total below or at the mass so far changes nothing; a rise sets the transferred mass,
and in RUNNING reloads the no-flow timer and offers the next draw that is due, with its index, the mass, and the
drawer's number at rest. A drawer number other than that one belongs to the outstanding draw, which completes once the
DRAW is confirmed: its entry uses one reserved entry, the batch's draws and the DRAW notice follow. A drawer fault
begins an abort; that its begin posts no notice is the model's choice (assumption 36). Values that are no news change
nothing; that a value below -2 is none is the model's choice (assumption 69). -/
def Obligations.DrawsFollowTheMass : Prop :=
  ∀ (s : State) (n : Nat) (e : MpEntry) (x : MpValue) (r : Running) (g : RunCfg), s.transfer.running = some r →
    e.owner = .run → s.mpOf .run e.role = some n → s.tables.transfer.run = some g →
    let v := x.val
    let now (f : Running → Running) : State := s.onTransfer fun u => { u with running := some (f r) }
    (e.role = .weigherTotal →
      let m := min ((v - r.base) * 1000) 2000000000
      (m ≤ r.mass → s.deliver n e x = s) ∧
      ((r.mass : Int) < m →
        (r.state ≠ .running → s.deliver n e x = now fun r => { r with mass := m.toNat }) ∧
        (r.state = .running →
          ((r.out.isSome = true ∨ ∀ p, r.points[r.next]? = some p → m.toNat < p) →
            s.deliver n e x = now fun r => { r with mass := m.toNat, noFlow := some (g.noFlow * 10) }) ∧
          (∀ p, r.out = none → r.points[r.next]? = some p → p ≤ m.toNat → s.roomFor g.drawer cDRAW .sequencer = true →
            s.deliver n e x = (now fun r => { r with
              mass := m.toNat, noFlow := some (g.noFlow * 10), next := r.next + 1, draw := some (g.drawLimit * 10)
              out := some { index := r.next, late := false, massAt := m.toNat, sampleAt := s.drawerAtRest
                            serial := s.filter.serial } }).queued g.drawer cDRAW s.noArg .sequencer .draw)))) ∧
    (e.role = .drawerState → ∀ o, r.out = some o →
      ((v = -1 ∨ v < -2 ∨ (0 ≤ v ∧ (o.sampleAt = some v ∨ o.report.isSome = true))) → s.deliver n e x = s) ∧
      (0 ≤ v → o.sampleAt ≠ some v → o.report = none →
        (o.confirmed = false → s.deliver n e x = now fun r => { r with out := some { o with report := some v } }) ∧
        (∀ m b, o.confirmed = true → s.batchAt r.source = some (m, b) → r.state = .running →
          (∀ p, r.points[r.next]? = some p → r.mass < p) → s.excise.storeFault = false → s.excise.now.next < max32 →
          let held := (now fun r => { r with draw := none, left := r.left - 1, out := none }).onExcise fun u =>
            { u with now := { u.now with reservation := u.now.reservation - 1 } }
          let entry := r.drawEntry o v
          (entry.kind = 5 ∧ entry.flags = (if o.late then 1 else 0) ∧ entry.batch = r.batchId ∧ entry.vessel = r.source.val ∧
            entry.draw = o.index ∧ entry.quantity = o.massAt ∧ entry.computed = (r.points[o.index]?).getD 0) ∧
          s.deliver n e x = ((((held.writeEntry entry).closeEvent false).onSlot m fun b => { b with
            draws := min 255 (b.draws + 1) })).post .draw .transfer r.source.val o.index v)) ∧
      (∀ leg, v = -2 → r.route = [leg] → s.roomFor leg.step.station cSTOP .override = true →
        (r.state = .routing ∨ r.state = .running ∨ r.state = .stalled ∨ r.state = .clearing) →
        s.deliver n e x = s.aborting r leg .drawerFault))

/-- R10, R12, R98, R128, R129, R132: a STRIP in CLEARING whose run-on expires with every draw complete is DONE: STOP
to the route, the STRIP entry with its DEVIATION flag and mark, the reservation released, the batch DONE in the malt
store, the kiln EMPTY, and the TRANSFER notice with the deviation. An abort of a CAST completes with the report of its
STOP: below half the expected mass the batch stays in the steep, DISTURBED, which waits for its cast again; the
ABORTED entry and notice carry the cause, a TRANSFER ABORT in progress is answered OK, and the compartment is EMPTY
again. Here no mark is pending, no request waits and the vessels are not in AUTO. The order of an abort's notices is
the model's (assumption 36), and so is the compartment's stage index (assumption 65). -/
def Obligations.FinishedTransfersLeaveTheirBatch : Prop :=
  (∀ (s : State) (r : Running) (leg : RouteLeg) (k : Fin 2) (m : Nat) (b : Batch), s.work = [] → s.transfer.running = some r →
    r.kind = .strip → r.state = .clearing → r.runOn = some 0 → r.out = none → r.points.length ≤ r.next →
    r.source = kilnNo k → r.dest = 12 → r.route = [leg] → s.roomFor leg.step.station cSTOP .override = true →
    s.batchAt (kilnNo k) = some (m, b) → s.excise.storeFault = false → s.excise.now.next < max32 →
    s.excise.now.restart = none → s.excise.pendingLock = none → s.mpsOf (.vessel (kilnNo k)) .airOnTemp = [] →
    (s.kiln k).grant = 0 → (s.kiln k).gate = false → s.transfer.requests = [] →
    let dev := (if r.mass ≤ r.expected then r.expected - r.mass else r.mass - r.expected) * 1000 / r.expected
    let off := s.excise.now.tables.tolerance < dev
    let a := (s.onTransfer fun u => { u with running := some { r with state := .done, runOn := none, ranOn := true } }).queued
      leg.step.station cSTOP s.noArg .override (.stopDone (kilnNo k))
    let w := ((((if off then a.onSlot m fun x => { x with marks := { x.marks with massDeviation := true } } else a).writeEntry
      { number := 0, kind := 4, flags := if off then 2 else 0, vessel := (kilnNo k).val, batch := r.batchId, quantity := r.mass
        computed := r.expected, a1 := 12 }).onExcise fun u => { u with
          now := { u.now with reservation := 0, openNo := 0 } }).closeEvent false)
    exec .runOnTimerExpiry s = .next ((((((((w.onTransfer fun u => { u with reserved := none }).onSlot m fun x => { x with
      state := .done, vessel := 12 }).clearInteg (kilnNo k)).onKiln k fun y => { y with index := 0, phase := .empty }).post
        .phase .vessel (kilnNo k).val 0 0).onKiln k fun y => { y with
          cool := none, step := none, ring := [], peatTime := none, peatRem := 0, fields := none }).post .transfer .transfer
            (kilnNo k).val 4 dev).onTransfer fun u => { u with running := none })) ∧
  ∀ (s : State) (src tag : Byte) (q : QEntry) (x : Flight) (r : Running) (o : StopOut) (i : Fin 4) (c : Fin 6) (m : Nat)
    (b : Batch) (cause : AbortCause), s.work = [] → (∀ w rest, s.field.phase ≠ .window src.toNat w rest) →
    s.filter.matching src.toNat tag.toNat = some (q, x) → x.replaced = false → q.offer.code = cSTOP → s.filter.waiting = [] →
    x.answer = .block .stopAbort o.serial → s.transfer.running = some r → r.kind = .cast → r.state = .aborted →
    r.cause = some cause → r.stops = [o] → o.failed = false → r.source = steepNo i → r.dest.val = (compNo c).val →
    2 * r.mass < r.expected → s.batchAt (steepNo i) = some (m, b) → s.excise.storeFault = false →
    s.excise.now.next < max32 → s.excise.now.restart = none → s.excise.pendingLock = none →
    (s.steep i).phase = .casting → s.steepMode i ≠ .auto →
    (∀ e ∈ s.tables.mp, e.2.owner = .vessel (compNo c) → e.2.role.bed = false) → s.transfer.requests = [] →
    let w := ((((s.dropEntry q.offer.station cSTOP).onSlot m fun y => { y with marks := { y.marks with disturbed := true } }
      ).writeEntry { number := 0, kind := 7, vessel := i.val, batch := r.batchId, quantity := r.mass, computed := r.expected
                     a0 := cause.code, a1 := (compNo c).val }).onExcise fun u => { u with
                       now := { u.now with reservation := 0, openNo := 0 } }).closeEvent false
    let t := ((((((((w.onTransfer fun u => { u with reserved := none }).onSlot m fun y => { y with
      state := .steeping, steepStart := some s.timeNow }).clearInteg (compNo c)).onSteep i fun y => { y with
        phase := .castWait }).post .phase .vessel i.val 7 (s.steep i).index).onComp c fun y => { y with
          phase := .empty, index := if y.index = 255 then 0 else y.index, stageTimer := none, interval := none, demand := none
          faults := 0, fields := none }).post .phase .vessel (compNo c).val 0
            (if (s.comp c).index = 255 then 0 else (s.comp c).index : Nat)).post .transfer .transfer i.val 5
              (cause.code : Nat)).onTransfer fun u => { u with running := none }
    (s.mgmt.plant = none → exec (.confirmTelegram src tag true) s = .next t) ∧
    (∀ p, s.mgmt.plant = some p → p.cls = 5 → p.code = 3 →
      exec (.confirmTelegram src tag true) s = .next (t.endLong .plant .ok 0))

/-- R122, R142, R148: the start of a transfer reserves n + 2 entries and uses one for its TRANSFER_START entry, whose
number becomes the open-transfer number; it plans n draws along E; the batch's base is the weigher's total and T is 0.
For an expected mass of at least 60,000 g and 1 to 8 draws, the planned points are n in number, each is below E, and
they are strictly ascending. -/
def Obligations.TransferStartReservesAndPlans : Prop :=
  (∀ (s : State) (q : TransferReq) (d : Fin 13) (slot : Nat) (b : Batch) (base : Int), s.batchAt q.source = some (slot, b) →
    s.weigher = some base → s.excise.storeFault = false → s.excise.now.next + 1 < max32 →
    let e := match b.acct with
      | some a => a.dry + a.water
      | none => 0
    let n := s.excise.drawCount q.kind
    let t := s.startTransfer q d
    t.excise.now.reservation = s.excise.now.reservation + n + 1 ∧ t.excise.now.next = s.excise.now.next + 1 ∧
      t.excise.now.openNo = s.excise.now.next ∧ t.excise.now.gen = (planDraws e n s.excise.now.gen).2 ∧
      ∃ r, t.transfer.running = some r ∧ r.kind = q.kind ∧ r.source = q.source ∧ r.dest = d ∧ r.batchId = b.id ∧
        r.state = .routing ∧ r.expected = e ∧ r.base = base ∧ r.mass = 0 ∧ r.left = n + 1 ∧
        r.points = (planDraws e n s.excise.now.gen).1) ∧
  ∀ e n x : Nat, 60000 ≤ e → n ≤ 8 →
    (planDraws e n x).1.length = n ∧ (∀ p ∈ (planDraws e n x).1, p < e) ∧ (planDraws e n x).1.Pairwise (· < ·)

/-! ## The excise unit and its store (R136, R137 to R142, R149, R150) -/

/-- R137 to R139: an entry takes the next number, plant time or TIME_NOT_SET, and the chain check seeded by the chain value;
it stands in its slot and in no other, and its check becomes the chain value. -/
def Obligations.EntryJoinsTheChain : Prop :=
  ∀ (s : State) (e : Entry), s.excise.storeFault = false → s.excise.now.next < max32 →
    let t : Entry := match s.clock.plant with
      | some p => { e with number := s.excise.now.next, day := p.day, second := p.second }
      | none => { e with number := s.excise.now.next, day := 0, second := 0, flags := e.flags + 4 }
    let x : Entry := { t with chain := crc32 s.excise.now.chain t.head }
    s.writeEntry e = s.onExcise (fun u => { u with
      now := { u.now with next := u.now.next + 1, chain := x.chain }
      slots := u.slots.put (slotOf x.number) x, fresh := u.fresh ++ [x] }) ∧
    (s.writeEntry e).excise.slots.get ((s.excise.now.next - 1) % 512) = some x ∧
    ∀ n, n ≠ (s.excise.now.next - 1) % 512 → (s.writeEntry e).excise.slots.get n = s.excise.slots.get n

/-- R136: when the oldest event's copy has been written, a start-up would take that event's counters from the store,
its entries stand in their slots, and the reply that waited for it is sent. A store write that is not completed puts
the unit into STORE_FAULT: nothing more is written, the notice is posted, the durable copy stands, and a waiting
request is answered NOT_READY; here no transfer runs. That each event is one write job, what of it a failed write has
left in the store, and that the failure drops every write still under way are the model's choice (assumptions 37 and
38). -/
def Obligations.StoreWritesEndDurableOrInFault : Prop :=
  ∀ s : State, s.work = [] →
    (∀ (j : WriteJob) (js : List WriteJob), s.excise.jobs = j :: js →
      ∃ n : NvStore, n.best.map (·.counters) = some j.counters ∧ n.formatted = s.excise.nv.formatted ∧
        n.slots = putEntries s.excise.nv.slots j.entries ∧
        exec .countersCopyWritten s =
          .next (if j.reply then (s.onExcise fun e => { e with nv := n, jobs := js }).endLong .excise .ok 0
            else s.onExcise fun e => { e with nv := n, jobs := js })) ∧
    (∀ w : FailedWrite, s.excise.jobs ≠ [] → s.excise.storeFault = false → s.transfer.running = none →
      ∃ n : NvStore, n.best = s.excise.nv.best ∧ n.formatted = s.excise.nv.formatted ∧
        let a := (s.onExcise fun e => { e with nv := n, storeFault := true, jobs := [], fresh := [] }).post .excise .excise
          0 4 0
        exec (.storeWriteFailure w) s =
          .next (if s.excise.jobs.any (·.reply) then a.endLong .excise .notReady 0 else a))

/-- R149, R150, R173: the idle timer's expiry relocks with cause IDLE, the staged excise tables going back to the committed
ones, and a LOCK entry in its own event; the lockout's expiry ends it with the failed count at 0 and no entry, and without
a counters copy, which is the model's choice (assumption 103). The silence
timer's expiry makes the part TRUNK_LOST with a STATION notice of source class TRUNK. The first telegram of the plant
controller that passes the tests restores a lost trunk: TRUNK_LOST is cleared, the timer is loaded, a STATION notice UP is
posted, and the arbiter scans, here where it starts the oldest eligible request or finds none; the telegram is then sorted
as on a trunk that was never lost; that the scan comes before the sorting is the model's choice (assumption 22). -/
def Obligations.LockAndTrunkTimersEndTheirStates : Prop :=
  ∀ s : State, s.work = [] →
    (s.excise.idle = some 0 → s.excise.lock = .unlocked → s.mgmt.excise = none → 1 ≤ s.excise.avail →
      s.excise.now.next < max32 →
      exec .idleTimerExpiry s = .next (((((s.onExcise fun e => { e with
        lock := .locked, idle := none, staged := e.now.tables }).writeEntry
          { number := 0, kind := 11, a0 := 2 }).closeEvent false)).post .excise .excise 0 0 2)) ∧
    (s.excise.lockout = some 0 → exec .lockoutTimerExpiry s = .next ((s.onExcise fun e => { e with
      lock := .locked, failed := 0, lockout := none }).post .excise .excise 0 0 0)) ∧
    (s.trunk.silence = some 0 → exec .trunkSilenceExpiry s =
      .next ((s.onTrunk fun t => { t with silence := none, lost := true }).post .station .trunk s.plantAddr 0 0)) ∧
    (∀ (bytes : List Byte) (f : Frame), s.trunk.lost = true → checkPasses bytes = true → frameOf bytes = some f →
      f.src = s.plantAddr →
      let up := (s.onTrunk fun t => { t with silence := some s.silenceTenths, lost := false }).post .station .trunk
        s.plantAddr 1 0
      (s.noScan = true → exec (.trunkTelegram bytes) s = exec (.trunkTelegram bytes) up) ∧
      (∀ q d, s.transfer.running = none → (s.transfer.requests.findSome? fun x => (up.eligible x).map fun y => (x, y)) =
        some (q, d) → f.dst ≠ (up.startTransfer q d).ownAddr → 63 < f.dst → (up.startTransfer q d).work = [] →
        exec (.trunkTelegram bytes) s = .next (up.startTransfer q d)))

/-! ## The trunk (R165 to R173, R189) -/

/-- R172, R188: when the transmitter finishes a telegram it takes the next one: a reply before a refusal, a refusal
before a notice, a notice before a forwarded sample; with nothing ready it stands idle. When a notice leaves the queue
while marks are pending, the mark with the earliest time, the one set first among equal times, becomes a notice at the
back of the queue with the state that Table 11-8 gives its source, and the mark is cleared (R189). That a comparator
that is SETTLING gives a LIMIT notice the state 3, and that times are compared as stored, is the model's choice
(assumptions 80, 82), and so is the own address of the moment as the source of what is taken (assumption 97). The end of
PART RESET's reply makes the reset due and takes nothing. -/
def Obligations.TransmitterTakesByPriority : Prop :=
  ∀ (s : State) (x : Sending), s.work = [] → s.trunk.tx = some x → s.mgmt.resetDue = false →
    (x.origin = .reply true → exec .transmitComplete s =
      .next ((s.onTrunk fun t => { t with tx := none }).onMgmt fun m => { m with resetDue := true })) ∧
    (x.origin ≠ .reply true →
      (∀ r rs, s.trunk.replies = r :: rs → exec .transmitComplete s = .next (s.onTrunk fun t => { t with
        replies := rs
        tx := some { origin := .reply r.isReset, bytes := telegram r.dest s.ownAddr tREPLY r.seq r.payload } })) ∧
      (∀ r rs, s.trunk.replies = [] → s.trunk.refusals = r :: rs →
        exec .transmitComplete s = .next (s.onTrunk fun t => { t with
          refusals := rs, seq := (t.seq + 1) % 256
          tx := some { origin := .refusal, bytes := telegram s.plantAddr s.ownAddr tREFUSAL t.seq r.payload } })) ∧
      (∀ n ns, s.trunk.replies = [] → s.trunk.refusals = [] → s.notices.queue = n :: ns → s.notices.marks = [] →
        exec .transmitComplete s = .next ((s.onNotices fun q => { q with queue := ns }).onTrunk fun t => { t with
          seq := (t.seq + 1) % 256
          tx := some { origin := .notice, bytes := telegram s.plantAddr s.ownAddr tNOTICE t.seq n.payload } })) ∧
      (∀ n ns a m b, s.trunk.replies = [] → s.trunk.refusals = [] → s.notices.queue = n :: ns →
        s.notices.marks = a ++ m :: b → (∀ z ∈ a, m.time < z.time) → (∀ z ∈ b, m.time ≤ z.time) →
        let becomes (st : Nat) : Prop := exec .transmitComplete s = .next ((s.onNotices fun _ =>
          { queue := ns ++ [{ m with state := st }], marks := a ++ b }).onTrunk fun t => { t with
            seq := (t.seq + 1) % 256
            tx := some { origin := .notice, bytes := telegram s.plantAddr s.ownAddr tNOTICE t.seq n.payload } })
        (m.kind = .limit → becomes (match (s.live m.idx).comp with
          | some (.steady .high) => 1
          | some (.steady .low) => 2
          | some (.settling _ _) => 3
          | some (.steady .normal) | none => 0)) ∧
        (∀ v : Fin 12, m.idx = v.val →
          (m.kind = .phase → becomes (if 10 ≤ v.val ∧ m.state = 7 then 7 else s.phaseCode v)) ∧
          (m.kind = .mode → becomes (s.vessel v).mode.code) ∧
          (m.kind = .blind → becomes (if (s.vessel v).blind = true then 0 else 1)) ∧
          (m.kind = .fault → becomes (((s.vessel v).fault.map FaultCode.code).getD m.state))) ∧
        (m.kind = .station → m.cls = .trunk → becomes (if s.trunk.lost = true then 0 else 1)) ∧
        (m.kind = .station → m.cls = .station →
          becomes (((s.field.health.get m.idx).map fun h => if h.up = true then 1 else 0).getD m.state)) ∧
        (∀ t : Fin 2, m.kind = .turner → m.idx = t.val → becomes (s.turner t).state.code) ∧
        (m.kind = .transfer →
          (∀ r, s.transfer.running = some r → r.source.val = m.idx → becomes r.state.code) ∧
          ((∀ r, s.transfer.running = some r → r.source.val ≠ m.idx) → becomes m.state)) ∧
        ((m.kind = .slip ∨ m.kind = .draw ∨ m.kind = .excise ∨ m.kind = .stageLimit ∨ m.kind = .walkOverrun) →
          becomes m.state)) ∧
      (∀ u us, s.trunk.replies = [] → s.trunk.refusals = [] → s.notices.queue = [] → s.trunk.up = u :: us →
        exec .transmitComplete s = .next (s.onTrunk fun t => { t with
          up := us, tx := some { origin := .sample, bytes := telegram s.plantAddr u.src tSAMPLE u.seq u.payload } })) ∧
      (s.trunk.replies = [] → s.trunk.refusals = [] → s.notices.queue = [] → s.trunk.up = [] →
        exec .transmitComplete s = .next (s.onTrunk fun t => { t with tx := none })))

/-- R189: a notice posted while the transmitter is busy joins the back of a queue with room; with the queue full it sets a
pending mark, or raises the one of its source and kind, which keeps its time. -/
def Obligations.NoticeJoinsTheQueueOrItsMark : Prop :=
  ∀ (s : State) (k : NoticeKind) (c : SourceClass) (i st : Nat) (v : Int),
    let n : Notice := { kind := k, cls := c, idx := i, state := st, count := 1, value := v, time := s.clock.process }
    (s.notices.queue.length < 32 → s.trunk.tx.isSome = true →
      s.post k c i st v = s.onNotices fun q => { q with queue := q.queue ++ [n] }) ∧
    (32 ≤ s.notices.queue.length → (∀ m ∈ s.notices.marks, m.key ≠ (k, c, i)) →
      s.post k c i st v = s.onNotices fun q => { q with marks := q.marks ++ [n] }) ∧
    (32 ≤ s.notices.queue.length → ∀ a m b, s.notices.marks = a ++ m :: b → m.key = (k, c, i) →
      (∀ x ∈ a ++ b, x.key ≠ (k, c, i)) →
      s.post k c i st v = s.onNotices fun q => { q with
        marks := a ++ { m with count := min 255 (m.count + 1), state := st, value := v } :: b })

/-- R172, R182: a reply whose result is given whole goes out behind the replies before it, laid out as Table 11-1 states, and
frees a held place. A reply that waits carries the own address of the moment as its source, the model's choice
(assumption 97). -/
def Obligations.ReplyGoesOutInOrder : Prop :=
  ∀ (s : State) (dst seq cls code : Nat) (st : Status) (d : Nat) (bs : List Byte),
    let t := s.formReply dst seq cls code st d (bs.map some) false
    t.replyTelegrams = s.replyTelegrams ++ [telegram dst s.ownAddr tREPLY seq
      (BitVec.ofNat 8 cls :: BitVec.ofNat 8 code :: BitVec.ofNat 8 st.code :: BitVec.ofNat 8 d :: bs)] ∧
    t.trunk.held = s.trunk.held - 1 ∧ t.draws = s.draws

/-- R165, R166, R168, R170, R182, also on a lost trunk (R173), here where the arbiter has nothing to scan: a COMMAND
telegram as the plant's transmitter lays it out, with its check, is taken as the
command TRUNK_COMMAND of its fields; one of another source is answered with ORIGIN. A MGMT_REQUEST telegram to the part is
taken as the request that its class and code name, shown for one request of each class. -/
def Obligations.TelegramsAreTheirCommands : Prop :=
  ∀ s : State, (s.trunk.lost = false ∨ (s.work = [] ∧ s.noScan = true)) →
    (∀ dst src seq code a b c d tag : Byte,
      let tele := telegram dst.toNat src.toNat tCOMMAND seq.toNat [code, a, b, c, d, tag]
      exec (.trunkTelegram tele) s = exec (.trunkCommand dst src code (a ++ b ++ c ++ d) tag) s ∧
      (s.work = [] → s.ownAddr ≠ dst.toNat → dst.toNat ≤ 63 → src.toNat ≠ s.plantAddr →
        exec (.trunkTelegram tele) s = .next (s.refuse dst.toNat code.toNat tag.toNat .origin 0))) ∧
    (∀ (src seq : Byte) (args : List Byte), args.length ≤ 46 → s.ownAddr < 256 →
      let tele (cls code : Byte) : Instr :=
        .trunkTelegram (telegram s.ownAddr src.toNat tREQUEST seq.toNat (cls :: code :: args))
      let r : Request := { src, seq, args }
      exec (tele 1 1) s = exec (.tableWriteEntry r) s ∧ exec (tele 2 1) s = exec (.batchOpen r) s ∧
        exec (tele 3 1) s = exec (.vesselSetMode r) s ∧ exec (tele 4 1) s = exec (.turnerHome r) s ∧
        exec (tele 5 3) s = exec (.transferAbort r) s ∧ exec (tele 6 4) s = exec (.exciseAcknowledgeExport r) s ∧
        exec (tele 7 5) s = exec (.partReset r) s)

/-- R153, R158, R163, R170: a COMMAND of the plant controller that passes the checks is queued with its tag and PLANT origin,
where fewer than 12 PLANT entries are queued; one of any other source is refused with ORIGIN and not offered. -/
def Obligations.PlantCommandIsRelayed : Prop :=
  ∀ (s : State) (dst src code : Byte) (arg : BitVec 32) (tag : Byte), s.work = [] → s.trunk.lost = false →
    s.ownAddr ≠ dst.toNat → dst.toNat ≤ 63 →
    (src.toNat = s.plantAddr → s.roomFor dst.toNat code.toNat .plant = true → s.filter.plantCount < 12 →
      code.toNat ≠ cRUN → code.toNat ≠ cSETPOINT → code.toNat ≠ cDUTYCAP →
      exec (.trunkCommand dst src code arg tag) s =
        .next ((s.onTrunk fun t => { t with silence := some s.silenceTenths }).onFilter fun f => { f with
          queue := f.queue ++ [{
            offer := { station := dst.toNat, code := code.toNat, arg := arg.toInt, origin := .plant
                       answer := .plant tag.toNat }
            owner := s.tables.stationOwner dst.toNat, caps := [] }] })) ∧
    (src.toNat ≠ s.plantAddr → exec (.trunkCommand dst src code arg tag) s =
      .next (s.refuse dst.toNat code.toNat tag.toNat .origin 0))

/-! ## Requests: tables (R184, R101) -/

/-- R184: WRITE ENTRY of tables 1 to 10 changes the staged copy alone; fields outside their ranges are BAD_ARGUMENT;
DISCARD sets the staged table equal to the committed one. Both are refused to the excise terminal; that NOT_PERMITTED
comes before the check of the fields is the model's choice (assumption 24). -/
def Obligations.WritesAndDiscardsAreStaged : Prop :=
  ∀ (s : State) (r : Request) (id : Byte) (n : Nat), entriesOf id.toNat = some n → exciseTable id.toNat = false →
    (∀ (i : Byte) (body : List Byte), r.args = id :: i :: body → i.toNat < n →
      (s.takes .plant r = true →
        (∀ x, s.staged.write id.toNat i.toNat body = some x →
          exec (.tableWriteEntry r) s = .next (({ s.received .plant with staged := x } : State).replies r 1 1 .ok)) ∧
        (s.staged.write id.toNat i.toNat body = none →
          exec (.tableWriteEntry r) s = .next ((s.received .plant).replies r 1 1 .badArgument))) ∧
      (s.takes .excise r = true →
        exec (.tableWriteEntry r) s = .next ((s.received .excise).replies r 1 1 .notPermitted))) ∧
    (r.args = [id] →
      (s.takes .plant r = true → exec (.tableDiscard r) s =
        .next (({ s.received .plant with staged := s.staged.take s.tables id.toNat } : State).replies r 1 3 .ok)) ∧
      (s.takes .excise r = true → exec (.tableDiscard r) s =
        .next ((s.received .excise).replies r 1 3 .notPermitted)))

/-- R50, R65, R92, R101, R155, R174, R175, R177, R184: a COMMIT whose checks fail leaves both copies and answers the
check's status; a firing budget below the present grants, a station table without a station of the running transfer,
and a change of its drawer station fail with WRONG_STATE. An accepted COMMIT replaces the committed table whole: of
CONFIGURATION, here with no larger budget; of STATION, with the health records of the stations that stay and new ones
UP; of POLL_SCHEDULE, adopted at the next cycle start, with the overrun flag cleared at the COMMIT, which is the model's
reading (assumption 54); of MP, here where an entry that changes has another station, channel or kind or its number was
empty, so that its MP is re-created as Table 2-2 starts one, or emptied, where no comparator ceases, and where the vessels
keep their watch and the steeps and kilns stand as the new MPs have them, which R25 and assumption 33 look after; of
INTERLOCK, VESSEL and TRANSFER; and of the programs, here with no vessel waiting for one. -/
def Obligations.CommitReplacesOrRefuses : Prop :=
  ∀ (s : State) (r : Request) (id : Byte) (n : Nat), s.takes .plant r = true → r.args = [id] →
    entriesOf id.toNat = some n → exciseTable id.toNat = false →
    (s.commitOk id.toNat ≠ .ok →
      exec (.tableCommit r) s = .next ((s.received .plant).replies r 1 2 (s.commitOk id.toNat))) ∧
    (id = 1 → s.staged.config = { s.tables.config with budget := s.staged.config.budget } → s.ownAddr = 112 →
      s.plantAddr = 1 → s.terminalAddr = 126 → s.staged.config.budgetOf < (s.kiln 0).grant + (s.kiln 1).grant →
      s.commitOk 1 = .wrongState) ∧
    (id = 2 → ∀ x leg, s.transfer.running = some x → leg ∈ x.route → s.staged.station.get leg.step.station = none →
      s.commitOk 2 = .wrongState) ∧
    (id = 10 → s.staged.transfer.ok = true → s.transfer.running.isSome = true →
      s.staged.transfer.run.map (·.drawer) ≠ s.tables.transfer.run.map (·.drawer) → s.commitOk 10 = .wrongState) ∧
    (s.commitOk id.toNat = .ok →
      let took (t : Tables) : State := { s.received .plant with tables := t }
      let done (u : State) : Prop := exec (.tableCommit r) s = .next (u.replies r 1 2 .ok)
      (id = 1 → s.staged.config.budgetOf ≤ s.budget → done (took { s.tables with config := s.staged.config })) ∧
      (id = 2 → done ((took { s.tables with station := s.staged.station }).onField fun f => { f with
        health := s.staged.station.map fun e => (e.1, (f.health.get e.1).getD { up := true, misses := 0, lastGood := none }) })) ∧
      (id = 3 → done ((took { s.tables with schedule := s.staged.schedule }).onField fun f => { f with
        adopt := true, overrunSeen := false })) ∧
      (id = 4 →
        let live := (List.range 128).foldl (fun l n =>
          if s.staged.mp.get n = s.tables.mp.get n then l
          else l.set n ((s.staged.mp.get n).map fun e =>
            { status := .none, last := none, lastGood := none, stageHigh := none
              comp := if e.low.isSome ∨ e.high.isSome then some (.steady .normal) else none })) s.intake.live
        let u := (took { s.tables with mp := s.staged.mp }).onIntake fun i => { i with live := live }
        (∀ n, n < 128 → s.staged.mp.get n ≠ s.tables.mp.get n → (s.live n).comp = none ∧
          ∀ a b, s.tables.mp.get n = some a → s.staged.mp.get n = some b →
            a.station ≠ b.station ∨ a.channel ≠ b.channel ∨ a.kind ≠ b.kind) →
        (∀ v, watchMpIn s.staged.mp v = watchMpIn s.tables.mp v) →
        (∀ i, (s.steep i).co2Hold = (decide (s.steepMode i ≠ .off) && u.co2High i)) →
        (∀ k, thermalOf (u.heatComparators k) = .clear ∧ (s.kiln k).thermal = .clear ∧ (s.kiln k).heatSeen = false) →
        done u) ∧
      (id = 5 → done (took { s.tables with interlock := s.staged.interlock })) ∧
      (id = 6 → s.noScan = true → done (took { s.tables with vessel := s.staged.vessel })) ∧
      (id = 7 → (∀ i, s.steepMode i = .auto → (s.steep i).phase ≠ .idle) →
        done (took { s.tables with steep := s.staged.steep })) ∧
      (id = 8 → (∀ c, (s.comp c).phase = .germinating → (s.comp c).index ≠ 255) →
        done (took { s.tables with germ := s.staged.germ })) ∧
      (id = 9 → (∀ k, (s.kiln k).phase = .waitHeat → (s.kiln k).index ≠ 255) →
        done (took { s.tables with kiln := s.staged.kiln })) ∧
      (id = 10 → s.noScan = true → done (took { s.tables with transfer := s.staged.transfer })))

/-! ## Requests: batches (R5 to R8, R16, R18, R19) -/

/-- R5: BATCH OPEN with its fields in range, a new id, a free slot and a steep that holds no batch and is not OFF makes an
OPENED record in the lowest free slot; the reply's detail byte is that slot. Each failing check has its status. -/
def Obligations.BatchOpenMakesARecord : Prop :=
  ∀ (s : State) (r : Request) (a b v p g k c d : Byte), r.args = [a, b, v, p, g, k, c, d] →
    let id := a.toNat * 256 + b.toNat
    let m0 := c.toNat * 256 + d.toNat
    let say (o : Originator) (st : Status) : Prop :=
      exec (.batchOpen r) s = .next ((s.received o).replies r 2 1 st)
    let fields : Prop := 1 ≤ id ∧ v.toNat ≤ 3 ∧ p.toNat ≤ 7 ∧ g.toNat ≤ 7 ∧ k.toNat ≤ 3 ∧ 500 ≤ m0 ∧ m0 ≤ 4000
    (s.takes .excise r = true → say .excise .notPermitted) ∧
    (s.takes .plant r = true →
      (¬ fields → say .plant .badArgument) ∧
      (fields → (s.batchOf id).isSome = true → say .plant .badArgument) ∧
      (fields → s.batchOf id = none → s.freeSlot = none → say .plant .noRoom) ∧
      (∀ (i : Fin 4) n, fields → v.toNat = i.val → s.batchOf id = none → s.freeSlot = some n →
        ((s.batchAt (steepNo i)).isSome = true ∨ s.steepMode i = .off → say .plant .wrongState) ∧
        (s.batchAt (steepNo i) = none → s.steepMode i ≠ .off →
          exec (.batchOpen r) s = .next (((s.received .plant).onBatch fun u => { u with
            slots := u.slots.put n { id := id, state := .opened, vessel := i.val, steepProg := p.toNat
                                     germProg := g.toNat, kilnProg := k.toNat, m0 := m0 } }).formReply
              r.src.toNat r.seq.toNat 2 1 .ok n [] false))))

/-- R6: BATCH START STEEP of an OPENED batch in a steep in MANUAL or HOLD weighs the batch in by the steep's grain mass,
writes the INTAKE entry in its own event, makes the batch STEEPING and puts the EMPTY steep into IDLE. -/
def Obligations.StartSteepWeighsTheBatchIn : Prop :=
  ∀ (s : State) (r : Request) (n : Nat) (b : Batch) (i : Fin 4) (kg : Nat), s.takes .plant r = true → r.args.length = 2 →
    s.batchOf (ofBytes r.args) = some (n, b) → b.vessel = i.val → b.state = .opened →
    (s.steepMode i = .manual ∨ s.steepMode i = .hold) → (s.steep i).phase = .empty →
    s.usableRole (.vessel (steepNo i)) .grainMass = some (kg : Int) → 100 ≤ kg → kg ≤ 50000 → 1 ≤ s.excise.avail →
    s.excise.now.next < max32 →
    let I := kg * 1000
    let D := I * (10000 - b.m0) / 10000
    let e : Entry := { number := 0, kind := 1, vessel := i.val, batch := b.id, quantity := I, computed := D }
    exec (.batchStartSteep r) s = .next (((((((s.received .plant).writeEntry e).closeEvent false).onSlot n fun x =>
      { x with
        state := .steeping, steepStart := some s.timeNow
        acct := some { intake := I, dry := D, water := I - D, rem := 0, moisture := (I - D) * 10000 / (D + (I - D)) }
        }).onSteep i fun x => { x with phase := .idle }).postVessel .phase (steepNo i) 1 (s.steep i).index).replies r 2 2 .ok)

/-- R7, R8, R16: a rest weighing re-bases W on the weighed mass, with its floor and its ceiling and their marks, and R
becomes 0; M follows by R7, and nothing else of the record changes. A drying step with a flow of at least 0 takes E =
N / 6000 grams from W and carries N mod 6000, so that no water is lost between steps; a step that W cannot pay sets W
and R to 0 and marks WATER_FLOOR. -/
def Obligations.AccountIsRebasedAndDried : Prop :=
  (∀ (b : Batch) (a : Account) (g : Int), b.acct = some a →
    let w : Nat := if g < a.dry then 0 else if 50000000 < g - a.dry then 50000000 else (g - a.dry).toNat
    b.weigh g = { b with
      acct := some { a with water := w, rem := 0, moisture := w * 10000 / (a.dry + w) }
      marks := { b.marks with
        waterFloor := b.marks.waterFloor || decide (g < a.dry)
        waterCeiling := b.marks.waterCeiling || decide (50000000 < g - a.dry) } }) ∧
  ∀ (b : Batch) (a : Account) (q h dt : Nat), b.acct = some a → a.water ≤ 50000000 →
    let n := q * h * dt + a.rem
    (n / 6000 ≤ a.water → ∃ c, b.dry q h dt = { b with acct := some c } ∧ c.dry = a.dry ∧ c.intake = a.intake ∧
      c.water * 6000 + n = a.water * 6000 + c.rem ∧ c.rem < 6000 ∧ c.moisture = c.water * 10000 / (c.dry + c.water)) ∧
    (a.water < n / 6000 → b.dry q h dt = { b with
      acct := some { a with water := 0, rem := 0, moisture := 0 }
      marks := { b.marks with waterFloor := true } })

/-- R14, R15: an air-off humidity delivery for a batch drying in a compartment or kiln. The first attempt records the
process time and ends. A later one takes the elapsed time modulo 2^32, above 600 as 600 with one gap and 0 as 1, and
the process time becomes the last-attempt time. With the air-on humidity and the fan flow of the vessel usable the
step is computed and counted, and a kiln is handed the moisture; else it is skipped, with one gap and one skipped
step, and no moisture is handed over. With no batch drying there, nothing changes (R13). -/
def Obligations.HumidityAttemptsADryingStep : Prop :=
  ∀ (s : State) (n : Nat) (e : MpEntry) (h : MpValue) (v : Fin 12) (i : Fin 8), v.val = i.val + 4 → e.owner = .vessel v →
    e.role = .airOffHumidity → s.mpOf (.vessel v) .airOffHumidity = some n →
    let g := bank s.batch.integ i
    let record (u : State) (x : Integrator) : State := u.onBatch fun b => { b with integ := b.integ.set i x }
    (s.dryingAt v = none → s.deliver n e h = s) ∧
    (∀ m b, s.dryingAt v = some (m, b) →
      (g.last = none → s.deliver n e h = record s { g with last := some s.timeNow }) ∧
      (∀ t, g.last = some t →
        let d := (s.timeNow + timeModulus - t) % timeModulus
        let dt := if 600 < d then 600 else if d = 0 then 1 else d
        let gap (b : Batch) : Batch := if 600 < d then { b with gaps := min max16 (b.gaps + 1) } else b
        (∀ on q, s.usableRole (.vessel v) .airOnHumidity = some on → s.usableRole (.vessel v) .fanFlow = some q →
          let dried := record (s.onSlot m fun b => (gap b).dry q (max 0 (h.val - on)) dt)
            { g with last := some s.timeNow, steps := min max16 (g.steps + 1) }
          (v.val < 10 → s.deliver n e h = dried) ∧ (∀ k, v = kilnNo k → s.deliver n e h = dried.kilnMoisture k)) ∧
        (s.usableRole (.vessel v) .airOnHumidity = none ∨ s.usableRole (.vessel v) .fanFlow = none →
          s.deliver n e h = record (s.onSlot m fun b => { gap b with gaps := min max16 ((gap b).gaps + 1) })
            { g with last := some s.timeNow, skipped := min max16 (g.skipped + 1) })))

/-- R18: BATCH ABANDON of an OPENED batch writes the ABANDON entry in its own event, puts the steep into OFF with the fan's
STOP of OVERRIDE origin, withdraws its transfer request, and makes the batch ABANDONED where it stands. -/
def Obligations.AbandonEmptiesTheSteep : Prop :=
  ∀ (s : State) (r : Request) (n : Nat) (b : Batch) (i : Fin 4) (g : SteepCfg), s.takes .plant r = true →
    r.args.length = 2 → s.batchOf (ofBytes r.args) = some (n, b) → b.state = .opened → b.acct = none → b.vessel = i.val →
    s.steepMode i ≠ .off → s.steepBlind i = false → (s.steep i).phase = .empty → s.steepCfg i = some g → g.aerate = none →
    s.roomFor g.fan cSTOP .override = true → s.noScan = true → 1 ≤ s.excise.avail → s.excise.now.next < max32 →
    let e : Entry := { number := 0, kind := 8, vessel := i.val, batch := b.id }
    exec (.batchAbandon r) s = .next ((((((((((s.received .plant).writeEntry e).closeEvent false).queued g.fan cSTOP s.noArg
      .override (.vessel (steepNo i))).onSteep i fun x => { x with
        phaseTimer := none, wait := none, fields := none, drained := false, co2Hold := false }).onVessel (steepNo i) fun _ =>
          { mode := .off, fault := none, watch := none, blind := false }).post .mode .vessel i.val 0
            ((s.steepMode i).code : Nat)).onTransfer fun u => { u with
              requests := u.requests.filter fun q => q.source ≠ steepNo i }).onSlot n fun x =>
                { x with state := .abandoned }).replies r 2 3 .ok)

/-- R19: BATCH RELEASE frees the slot of a DONE or ABANDONED record and of no other; each refusal changes nothing. -/
def Obligations.ReleaseFreesTheSlot : Prop :=
  ∀ (s : State) (r : Request), r.args.length = 2 →
    let say (o : Originator) (st : Status) : Prop := exec (.batchRelease r) s = .next ((s.received o).replies r 2 4 st)
    (s.takes .excise r = true → say .excise .notPermitted) ∧
    (s.takes .plant r = true →
      (s.batchOf (ofBytes r.args) = none → say .plant .badArgument) ∧
      (∀ n b, s.batchOf (ofBytes r.args) = some (n, b) →
        (b.state ≠ .done → b.state ≠ .abandoned → say .plant .wrongState) ∧
        ((b.state = .done ∨ b.state = .abandoned) → exec (.batchRelease r) s = .next
          (((s.received .plant).onBatch fun u => { u with slots := u.slots.del n }).replies r 2 4 .ok))))

/-! ## Requests: vessels and turners (R44, R45, R85 to R87, R104) -/

/-- R41, R44, R45, R57, R58, R68, R104, R106, R113: SET MODE to MANUAL or HOLD of a vessel in the other of these two clears
its fault code, and a compartment's turner-fault count, sets the mode and posts the MODE notice, and so does AUTO of an
EMPTY vessel in one of the two; out of OFF, an EMPTY vessel also loads the watch timer where it has a watch MP. AUTO of a
GERMINATING compartment with a stage running offers the stage's air and fan commands again. To the mode it has, it clears
alone; to OFF with a batch or a reservation it is refused with WRONG_STATE. Without, the vessel offers its STOPs with
OVERRIDE origin in the old mode, stops its timers and its watch, and is OFF: a compartment's fan, a steep's aeration and
fan, here with no valve left open, and a kiln's burner and fan, here without a grant and with its gate shut. No demand
waits here. SET GRANT of a kiln in MANUAL within the budget sets
the grant: a HOT or HOLDING kiln's cap stays under a larger one, and a cap already under a smaller one stays; a grant
beyond B less the other kiln's is refused with NO_ROOM. -/
def Obligations.VesselRequestsSetModeAndGrant : Prop :=
  (∀ (s : State) (r : Request) (v : Fin 12) (m : Mode), s.takes .plant r = true →
    r.args = [BitVec.ofNat 8 v.val, BitVec.ofNat 8 m.code] → s.hasEntry v = true → s.noScan = true →
    let cleared := match vesselIs v with
      | .comp c => ((s.received .plant).onVessel v fun x => { x with fault := none }).onComp c fun x => { x with faults := 0 }
      | _ => (s.received .plant).onVessel v fun x => { x with fault := none }
    let old := (s.vessel v).mode
    let done (u : State) : Prop := exec (.vesselSetMode r) s = .next (u.replies r 3 1 .ok)
    let noted (u : State) : State := u.post .mode .vessel v.val m.code (old.code : Nat)
    (((m = .manual ∧ old = .hold) ∨ (m = .hold ∧ old = .manual) ∨
        (m = .auto ∧ (old = .manual ∨ old = .hold) ∧ s.phaseEmpty v = true ∧ ∀ c, (s.comp c).demand = none)) →
      done (noted (cleared.onVessel v fun x => { x with mode := m }))) ∧
    (m ≠ .off → old = .off → s.phaseEmpty v = true → (∀ c, (s.comp c).demand = none) →
      (∀ i, v = steepNo i → s.co2High i = false ∧ (s.steep i).co2Hold = false) →
      done (noted (cleared.onVessel v fun x => { x with
        mode := m
        watch := if watchMpIn s.tables.mp v = true then (s.tables.vessel.watchOf v).map (· * 10) else x.watch }))) ∧
    (∀ (c : Fin 6) (k : CompCfg) (f : GermStage), v = compNo c → m = .auto → (old = .manual ∨ old = .hold) →
      (s.comp c).phase = .germinating → (s.comp c).index ≠ 255 → (s.comp c).fields = some f → s.compCfg c = some k →
      (∀ d, (s.comp d).demand = none) → k.air ≠ k.fan → s.filter.queue.length < 14 →
      (∀ i g, s.kilnCfg i = some g → g.burner ≠ k.air ∧ g.burner ≠ k.fan ∧ g.peat ≠ some k.fan) →
      let u := cleared.onVessel v fun x => { x with mode := .auto }
      u.roomFor k.air cSETPOINT .sequencer = true → u.roomFor k.fan cRUN .sequencer = true →
      u.roomFor k.fan cSETPOINT .sequencer = true →
      let a := (noted u).queued k.air cSETPOINT f.air .sequencer (.vessel v)
      done ((a.queued k.fan cRUN a.noArg .sequencer (.vessel v)).queued k.fan cSETPOINT f.fan .sequencer (.vessel v))) ∧
    (m = .off → old ≠ .off → s.batchAt v = none → s.transfer.reserved ≠ some v → (s.vessel v).blind = false →
      let off (u : State) : Prop := done ((noted (u.onVessel v fun x => { x with mode := .off })).onVessel v fun x =>
        { x with watch := none })
      let stop (u : State) (st : Nat) : State := u.queued st cSTOP u.noArg .override (.vessel v)
      (∀ (c : Fin 6) (k : CompCfg), v = compNo c → s.compCfg c = some k → s.roomFor k.fan cSTOP .override = true →
        off ((stop cleared k.fan).onComp c fun x => { x with stageTimer := none, interval := none })) ∧
      (∀ (i : Fin 4) (k : SteepCfg), v = steepNo i → s.steepCfg i = some k → (s.steep i).phase ≠ .filling →
        (s.steep i).phase ≠ .draining → s.roomFor k.fan cSTOP .override = true →
        let still (u : State) : State := u.onSteep i fun x => { x with phaseTimer := none, wait := none, co2Hold := false }
        (k.aerate = none → off (still (stop cleared k.fan))) ∧
        (∀ w, k.aerate = some w → w ≠ k.fan → s.roomFor w cSTOP .override = true → s.filter.queue.length < 15 →
          off (still (stop (stop cleared w) k.fan)))) ∧
      (∀ (i : Fin 2) (k : KilnCfg), v = kilnNo i → s.kilnCfg i = some k → (s.kiln i).grant = 0 → (s.kiln i).gate = false →
        k.burner ≠ k.fan → s.roomFor k.burner cSTOP .override = true → s.roomFor k.fan cSTOP .override = true →
        s.filter.queue.length < 15 →
        off ((stop (stop cleared k.burner) k.fan).onKiln i fun x => { x with step := none }))) ∧
    (m ≠ .off → (s.vessel v).mode = m → exec (.vesselSetMode r) s = .next (cleared.replies r 3 1 .ok)) ∧
    (m = .off → ((s.batchAt v).isSome = true ∨ s.transfer.reserved = some v) →
      exec (.vesselSetMode r) s = .next ((s.received .plant).replies r 3 1 .wrongState))) ∧
  ∀ (s : State) (r : Request) (k : Fin 2) (g : Nat), s.takes .plant r = true → g ≤ 8 →
    r.args = [BitVec.ofNat 8 (kilnNo k).val, BitVec.ofNat 8 g] → s.kilnMode k = .manual →
    ((s.kiln k).phase = .waitHeat ∨ (s.kiln k).phase = .firing) → (s.kiln k).index ≠ 255 →
    (s.budget - (s.kiln (other k)).grant < g →
      exec (.vesselSetGrant r) s = .next ((s.received .plant).replies r 3 2 .noRoom)) ∧
    (g ≤ s.budget - (s.kiln (other k)).grant → (s.kiln k).grant < g → (s.kiln k).thermal ≠ .clear →
      exec (.vesselSetGrant r) s =
        .next (((s.received .plant).onKiln k fun x => { x with grant := g }).replies r 3 2 .ok)) ∧
    (g ≤ s.budget - (s.kiln (other k)).grant → g < (s.kiln k).grant → (s.kiln k).cap ≤ g →
      (s.kiln k).step = none → s.kilnMode (other k) ≠ .auto →
      exec (.vesselSetGrant r) s =
        .next (((s.received .plant).onKiln k fun x => { x with grant := g }).replies r 3 2 .ok))

/-- R75 to R79, R81, R85 to R87: a demand that is raised is granted to the IDLE turner whose route is clear of the other's position and
target, the nearer of two and turner 0 on a tie: with MOVE_TO and the move timer the turner is MOVING, and one that
stands at the compartment starts its pass at once, with the pass length, the pass timer, TURN_FORWARD, and SPRINKLE
where the stage has it and M is below its ceiling. The CONFIRM of the MOVE_TO makes arrival possible: before it, a
report at the target has no effect. At arrival the position is the target and the pass starts; where the compartment is
not GERMINATING or not in AUTO, the turner is IDLE there and the demand is removed or returns. A HOMING turner that
arrives begins its back-run. In FAULT a report is kept, whatever its
value (the model's choice, assumption 90), and an IDLE turner that reports elsewhere faults.
TURNER HOME puts both turners into HOMING with position absent and the parks as targets, offers each
MOVE_TO with SEQUENCER origin, and is in progress; no reply is formed; the order of the two turners is the model's
choice (assumption 99). TURNER CLEAR of a turner in FAULT that has
reported at rest at p makes it IDLE at p where it was homed and p keeps the order of the crossway, and UNHOMED
otherwise. Here no compartment has a demand but the one that is named. -/
def Obligations.TurnersAreGrantedHomedAndCleared : Prop :=
  (∀ (s : State) (t : Fin 2) (c : Fin 6) (g : TurnerCfg) (k : CompCfg), s.turnerCfg t = some g → s.compCfg c = some k →
    (∀ d, d ≠ c → (s.comp d).demand = none) →
    let x := s.turner t
    let y := s.turner (other t)
    let p := c.val + 1
    let room (code : Nat) : Prop := s.roomFor g.drive code .sequencer = true
    let passing (u : State) : State :=
      ((u.queued g.drive cFORWARD u.noArg .sequencer (.drive t)).onTurner t fun z => { z with
        state := .passOut, passLength := k.length, passTimer := some (g.passLimit * 600) }).post .turner .turner t.val 4
          (compNo c).val
    let starts (u : State) (is : State → Prop) : Prop :=
      (((s.comp c).fields = none ∨ s.moistureAt (compNo c) = none ∨ k.sprinkler = none ∨ (∃ f m, (s.comp c).fields = some f ∧
        s.moistureAt (compNo c) = some m ∧ (f.litres = 0 ∨ f.ceiling ≤ m))) → is (passing u)) ∧
      (∀ f m w, (s.comp c).fields = some f → s.moistureAt (compNo c) = some m → k.sprinkler = some w → f.litres ≠ 0 →
        m < f.ceiling → (s.comp c).index ≠ 255 → s.roomFor w cSPRINKLE .sequencer = true → s.filter.queue.length < 15 →
        is ((passing u).queued w cSPRINKLE f.litres .sequencer (.vessel (compNo c))))
    (s.work = [] → s.compTimersRun c = true → (s.comp c).interval = some 0 → (s.comp c).demand = none → x.state = .idle →
      ∀ q, x.position = some q →
      let clear (o : Turner) (west : Bool) : Prop := ∃ w, o.position = some w ∧ (if west then p < w else w < p) ∧
        ∀ z, o.target = some z → if west then p < z else z < p
      let away (a : Nat) : Nat := max a p - min a p
      clear y (t = 0) → (y.state ≠ .idle ∨ ¬ clear x (t ≠ 0) ∨
        ∃ w, y.position = some w ∧ (away q < away w ∨ (away q = away w ∧ t = 0))) →
      let granted := (s.onComp c fun z => { z with
        interval := none, demand := some { kind := .scheduled, time := s.timeNow, turner := some t } }).onTurner t fun z =>
          { z with assigned := some c }
      (q ≠ p → room cMOVETO → exec (.intervalTimerExpiry c) s =
        .next (((granted.queued g.drive cMOVETO p .sequencer (.drive t)).onTurner t fun z => { z with
          state := .moving, target := some p, moveSerial := some s.filter.serial, moveAccepted := false
          moveTimer := some (g.moveLimit * 10) }).post .turner .turner t.val 3 (compNo c).val)) ∧
      (q = p → room cFORWARD → starts granted fun u => exec (.intervalTimerExpiry c) s = .next u)) ∧
    (∀ (src tag : Byte) (e : QEntry) (f : Flight) (n : Nat), s.work = [] →
      (∀ w rest, s.field.phase ≠ .window src.toNat w rest) → s.filter.matching src.toNat tag.toNat = some (e, f) →
      f.replaced = false → e.offer.code = cMOVETO → s.filter.waiting = [] → f.answer = .block (.drive t) n →
      x.moveSerial = some n → exec (.confirmTelegram src tag true) s =
        .next ((s.dropEntry e.offer.station cMOVETO).onTurner t fun z => { z with moveAccepted := true })) ∧
    (∀ (n : Nat) (e : MpEntry) (v : MpValue), e.owner = .turner t → e.role = .turnerState →
      s.mpOf (.turner t) .turnerState = some n →
      let at_ : State := s.onTurner t fun z => { z with position := some v.val.toNat, target := none, moveTimer := none }
      let idle := (at_.onTurner t fun z => { z with state := .idle, assigned := none }).post .turner .turner t.val 2
        (v.val.toNat : Nat)
      (x.state = .moving → v.val ≠ 11 → ((∀ a, x.target = some a → v.val ≠ a) ∨ x.moveAccepted = false) →
        s.deliver n e v = s) ∧
      (x.state = .moving → 0 ≤ v.val → v.val ≤ 7 → x.target = some v.val.toNat → x.moveAccepted = true →
        x.assigned = some c →
        ((s.comp c).phase = .germinating → s.compMode c = .auto → (s.comp c).demand.any (fun d => d.turner = some t) = true →
          room cFORWARD → starts at_ fun u => s.deliver n e v = u) ∧
        ((s.comp c).phase ≠ .germinating → s.deliver n e v = idle.onComp c fun z => { z with demand := none }) ∧
        ((s.comp c).phase = .germinating → s.compMode c ≠ .auto → s.deliver n e v = idle.onComp c fun z => { z with
          demand := z.demand.map fun d => if d.turner = some t then { d with turner := none } else d })) ∧
      (x.state = .homing → 0 ≤ v.val → v.val ≤ 7 → x.target = some v.val.toNat → x.moveAccepted = true →
        (s.comp c).demand = none → room cBACK → s.deliver n e v =
          (at_.onTurner t fun z => { z with marker := false, passTimer := some (g.passLimit * 600) }).queued g.drive cBACK
            s.noArg .sequencer (.drive t)) ∧
      (x.state = .fault → s.deliver n e v = s.onTurner t fun z => { z with faultReport := some v.val }) ∧
      (x.state = .idle → x.assigned = none → 0 ≤ v.val → v.val ≤ 7 → x.position ≠ some v.val.toNat → room cSTOP →
        s.deliver n e v = ((s.queued g.drive cSTOP s.noArg .sequencer (.drive t)).onTurner t fun z => { z with
          state := .fault, cause := some .unbiddenMove, moveTimer := none, passTimer := none, faultReport := none }).post
            .turner .turner t.val 6 (TurnerCause.code .unbiddenMove : Nat)))) ∧
  (∀ (s : State) (r : Request) (g h : TurnerCfg), s.takes .plant r = true → r.args = [] → s.canHome = true →
    s.turnerCfg 0 = some g → s.turnerCfg 1 = some h → g.drive ≠ h.drive →
    ((s.turner 0).state = .unhomed ∨ (s.turner 0).state = .idle) →
    ((s.turner 1).state = .unhomed ∨ (s.turner 1).state = .idle) →
    s.roomFor g.drive cMOVETO .sequencer = true → s.roomFor h.drive cMOVETO .sequencer = true →
    s.filter.queue.length < 15 →
    let begun := (s.received .plant).onMgmt fun m => { m with
      plant := some { src := r.src.toNat, seq := r.seq.toNat, cls := 4, code := 1 } }
    let homing (u : State) (t : Fin 2) (c : TurnerCfg) (p n : Nat) : State :=
      (u.onTurner t fun x => { x with
        state := .homing, position := none, target := some p, moveSerial := some n, moveAccepted := false
        moveTimer := some (c.moveLimit * 10) }).post .turner .turner t.val 1 255
    exec (.turnerHome r) s = .next (((homing (homing begun 0 g 0 s.filter.serial) 1 h 7 (s.filter.serial + 1)).queued g.drive
      cMOVETO 0 .sequencer (.drive 0)).queued h.drive cMOVETO 7 .sequencer (.drive 1))) ∧
  ∀ (s : State) (r : Request) (t : Fin 2) (p : Nat), s.takes .plant r = true → r.args = [BitVec.ofNat 8 t.val] →
    (s.turner t).state = .fault → (s.turner t).faultReport = some (p : Int) → p ≤ 7 → s.noScan = true →
    (∀ c, (s.comp c).demand = none) →
    let u := (s.received .plant).onTurner t fun x => { x with target := none, assigned := none, cause := none }
    (((s.turner t).position.isSome = true ∧ s.keepsOrder t p = true) → exec (.turnerClear r) s =
      .next (((u.onTurner t fun x => { x with position := some p, state := .idle }).post .turner .turner t.val 2 p).replies
        r 4 2 .ok)) ∧
    (((s.turner t).position = none ∨ s.keepsOrder t p = false) → exec (.turnerClear r) s =
      .next (((u.onTurner t fun x => { x with position := none, state := .unhomed }).post .turner .turner t.val 0
        255).replies r 4 2 .ok))

/-! ## Requests: the transfer run (R118, R130, R131) -/

/-- R117, R118: an accepted TRANSFER REQUEST joins the list in its place with origin PLANT; the source's phase state and a
request already in the list are checked. A running transfer keeps the arbiter from scanning. -/
def Obligations.TransferRequestJoinsTheList : Prop :=
  ∀ (s : State) (r : Request) (k : TransferKind) (v : Fin 12) (d : Option (Fin 13)), s.takes .plant r = true →
    readAll readTransferReq r.args = some (k, v, d) → r.args.length = 4 →
    ((s.awaitsTransfer v = false ∨ s.hasRequest v = true) →
      exec (.transferRequest r) s = .next ((s.received .plant).replies r 5 1 .wrongState)) ∧
    (s.awaitsTransfer v = true → s.hasRequest v = false → s.transfer.running.isSome = true →
      exec (.transferRequest r) s = .next (((s.received .plant).onTransfer fun u => { u with
        requests := insertReq u.requests
          { kind := k, source := v, dest := if k = .strip then some (d.getD 12) else d, fromPlant := true
            time := s.timeNow } }).replies r 5 1 .ok))

/-- R130, R131: RESUME of a STALLED transfer, with no usable reading of the source and no draw due, makes it RUNNING
with a fresh no-flow timer and its notice; it is refused in any other state. ABORT begins an abort with cause
OPERATOR, and of a transfer already ABORTED is in progress with that abort; no reply is formed. That the begin of an
abort posts no notice is the model's choice (assumption 36). -/
def Obligations.ResumeAndAbortActOnTheTransfer : Prop :=
  ∀ (s : State) (r : Request) (x : Running), s.takes .plant r = true → r.args = [] → s.transfer.running = some x →
    let begun (u : State) : State := u.onMgmt fun m => { m with
      plant := some { src := r.src.toNat, seq := r.seq.toNat, cls := 5, code := 3 } }
    (x.state ≠ .stalled →
      exec (.transferResume r) s = .next ((s.received .plant).replies r 5 2 .wrongState)) ∧
    (∀ g, x.state = .stalled → s.tables.transfer.run = some g →
      s.usableRole (.vessel x.source) (emptyRole x.source) = none → x.out.isSome = true →
      exec (.transferResume r) s = .next (((((s.received .plant).onTransfer fun u => { u with
        running := some { x with state := .running } }).post .transfer .transfer x.source.val 1
          ((x.mass / 1000 : Nat) : Int)).onTransfer fun u => { u with
            running := some { x with state := .running, noFlow := some (g.noFlow * 10) } }).replies r 5 2 .ok)) ∧
    (∀ leg, x.route = [leg] → s.roomFor leg.step.station cSTOP .override = true →
      (x.state = .routing ∨ x.state = .running ∨ x.state = .stalled ∨ x.state = .clearing) →
      exec (.transferAbort r) s = .next ((begun (s.received .plant)).aborting x leg .operator)) ∧
    (x.state = .aborted → exec (.transferAbort r) s = .next (begun (s.received .plant)))

/-! ## Requests: reads (R20, R42, R60, R88, R116, R134, R146, R164, R181, R182, R186, R187) -/

/-- R182: the READ requests of the classes TABLE, BATCH, VESSEL, TURNER and TRANSFER, and READ COUNTERS, answer the
part of 44 bytes that they name, with the number of parts as detail byte, and change nothing; a part beyond is
BAD_ARGUMENT. EXCISE READ ENTRY, EXCISE READ STATUS and PART READ STATUS answer their results whole. EXCISE READ STATUS
shows the idle time that the excise terminal's own request has just reloaded, which is the model's reading (assumption
74). The bytes of the arguments and the widths of the results are the model's choice (assumptions 14, 49, 51, 68, 73, 88,
92 and 98), and so are ages modulo 2^32 (assumption 95), and so is what stands in the last entry's slot (assumption 39).
BATCH READ by slot and the tables SEED and CODE are left out. -/
def Obligations.ReadsAnswerAndChangeNothing : Prop :=
  ∀ (s : State) (o : Originator) (r : Request), s.takes o r = true →
    let u := s.received o
    let part (c : Instr) (cls code : Nat) (res : ResultBytes) (part : Byte) : Prop :=
      exec c s = .next (if part.toNat < (res.length + 43) / 44
        then u.formReply r.src.toNat r.seq.toNat cls code .ok ((res.length + 43) / 44) ((res.drop (44 * part.toNat)).take 44)
          false
        else u.replies r cls code .badArgument)
    let whole (c : Instr) (cls code : Nat) (res : ResultBytes) : Prop :=
      exec c s = .next (u.formReply r.src.toNat r.seq.toNat cls code .ok 0 res false)
    (∀ (id i sel p : Byte) n, r.args = [id, i, sel, p] → entriesOf id.toNat = some n → id.toNat ≠ 12 → id.toNat ≠ 14 →
      i.toNat < n → sel.toNat ≤ 1 →
      part (.tableRead r) 1 4 (u.readTable id.toNat i.toNat (decide (sel.toNat = 1))) p) ∧
    (∀ (a b p : Byte) n x, r.args = [a, b, 0, p] → s.batchOf (a.toNat * 256 + b.toNat) = some (n, x) →
      part (.batchRead r) 2 5 x.put p) ∧
    (∀ (v : Fin 12) (p : Byte), r.args = [BitVec.ofNat 8 v.val, p] → part (.vesselRead r) 3 3 (s.readVessel v) p) ∧
    (∀ (t : Fin 2) (p : Byte), r.args = [BitVec.ofNat 8 t.val, p] → part (.turnerRead r) 4 3 (s.turner t).put p) ∧
    (∀ p : Byte, r.args = [p] → part (.transferRead r) 5 4 s.readTransfer p) ∧
    (∀ p : Byte, r.args = [p] → part (.partReadCounters r) 7 3 s.readCounters p) ∧
    (∀ e, r.args.length = 4 → s.excise.holds (ofBytes r.args) = true →
      s.excise.slots.get (slotOf (ofBytes r.args)) = some e →
      whole (.exciseReadEntry r) 6 3 (e.bytes.map some)) ∧
    (r.args = [] → whole (.exciseReadStatus r) 6 5 u.readExcise) ∧
    (r.args = [] → whole (.partReadStatus r) 7 1 s.readStatus)

/-! ## Requests: the excise unit (R145, R149, R150) -/

/-- R145, R149, R150: in LOCKED with room for an entry, the right code opens the lock with an UNLOCK entry, a fresh
idle timer and its notice; the first two wrong codes are counted in an UNLOCK_REFUSED entry and answered with the
count; the third locks the terminal out for 3600 s. EXCISE LOCK relocks an open lock with cause REQUEST, a LOCK entry
and its notice, and answers OK where the lock is not open; the plant controller is refused with NOT_PERMITTED.
ACKNOWLEDGE EXPORT within exported-through and next, with no mark pending, advances exported-through and is in
progress until the copy that carries it is written; outside that range it is BAD_ARGUMENT, in STORE_FAULT NOT_READY,
and from the plant controller NOT_PERMITTED. -/
def Obligations.ExciseRequestsMoveLockAndExport : Prop :=
  (∀ (s : State) (r : Request),
    (s.takes .excise r = true → r.args.length = 4 → s.excise.lock = .locked → 1 ≤ s.excise.avail →
      s.excise.now.next < max32 →
      let u := s.received .excise
      let n := s.excise.failed + 1
      let wrong := ((u.onExcise fun e => { e with failed := n }).writeEntry
        { number := 0, kind := 12, quantity := n, a1 := r.src.toNat }).closeEvent false
      (ofBytes r.args = s.excise.now.tables.code → exec (.exciseUnlock r) s =
        .next (((((u.onExcise fun e => { e with lock := .unlocked, failed := 0, idle := some 18000 }).writeEntry
          { number := 0, kind := 10, a1 := r.src.toNat }).closeEvent false).post .excise .excise 0 1 0).replies r 6 1
            .ok)) ∧
      (ofBytes r.args ≠ s.excise.now.tables.code → n < 3 → exec (.exciseUnlock r) s =
        .next (wrong.formReply r.src.toNat r.seq.toNat 6 1 .notPermitted n [] false)) ∧
      (ofBytes r.args ≠ s.excise.now.tables.code → 3 ≤ n → exec (.exciseUnlock r) s =
        .next (((wrong.onExcise fun e => { e with lock := .lockedOut, lockout := some 36000 }).post .excise .excise 0 2
          3).replies r 6 1 .locked))) ∧
    (r.args = [] →
      (s.takes .excise r = true →
        (s.excise.lock = .unlocked → 1 ≤ s.excise.avail → s.excise.now.next < max32 → exec (.exciseLock r) s =
          .next ((((((s.received .excise).onExcise fun e => { e with
            lock := .locked, idle := none, staged := e.now.tables }).writeEntry
              { number := 0, kind := 11, a0 := 1 }).closeEvent false).post .excise .excise 0 0 1).replies r 6 2 .ok)) ∧
        (s.excise.lock ≠ .unlocked → exec (.exciseLock r) s = .next ((s.received .excise).replies r 6 2 .ok))) ∧
      (s.takes .plant r = true → exec (.exciseLock r) s = .next ((s.received .plant).replies r 6 2 .notPermitted)))) ∧
  ∀ (s : State) (r : Request), r.args.length = 4 →
    let a := ofBytes r.args
    let say (o : Originator) (st : Status) : Prop :=
      exec (.exciseAcknowledgeExport r) s = .next ((s.received o).replies r 6 4 st)
    (s.takes .plant r = true → say .plant .notPermitted) ∧
    (s.takes .excise r = true → s.excise.storeFault = true → say .excise .notReady) ∧
    (s.takes .excise r = true → s.excise.storeFault = false →
      (a < s.excise.now.exported ∨ s.excise.now.next ≤ a → say .excise .badArgument) ∧
      (s.excise.now.exported ≤ a → a < s.excise.now.next → s.excise.now.restart = none → s.excise.pendingLock = none →
        s.noScan = true →
        exec (.exciseAcknowledgeExport r) s = .next (((s.received .excise).onMgmt fun m => { m with
          excise := some { src := r.src.toNat, seq := r.seq.toNat, cls := 6, code := 4 } }).onExcise fun e => { e with
            now := { e.now with exported := a }
            jobs := e.jobs ++ [{ entries := e.fresh, counters := { e.now with exported := a }, reply := true }]
            fresh := [] })))

/-- R147: COMMIT of an excise table is NOT_PERMITTED to the plant controller and LOCKED where the lock is not open; a
staged entry outside its range, or a terminal address equal to an address of the part or the plant, is BAD_ARGUMENT; without
space for its TABLE_CHANGE
entries it is EXCISE_FULL with the FULL notice. Accepted, it writes one entry for each entry of the table, in index
order, adopts the staged table, and for the seed the generator's state, and is in progress until the copy that carries
them is written. The order of the checks, and of the FULL notice before the reply EXCISE_FULL, are the model's choice
(assumptions 24 and 55). A scan that the draw plan prompts finds nothing here. -/
def Obligations.ExciseCommitIsRegistered : Prop :=
  ∀ (s : State) (r : Request) (id : Byte), r.args = [id] → 11 ≤ id.toNat → id.toNat ≤ 14 →
    let st := s.excise.staged
    let changes : List Nat :=
      if id = 11 then [st.castDraws, st.loadDraws, st.stripDraws, st.tolerance] else if id = 13 then [st.terminal] else [0]
    let say (o : Originator) (x : Status) : Prop := exec (.tableCommit r) s = .next ((s.received o).replies r 1 2 x)
    (s.takes .plant r = true → say .plant .notPermitted) ∧
    (s.takes .excise r = true → s.excise.lock ≠ .unlocked → say .excise .locked) ∧
    (s.takes .excise r = true → s.excise.lock = .unlocked →
      let clash := id = 13 ∧ (st.terminal = s.ownAddr ∨ st.terminal = s.plantAddr)
      let outside := (id = 11 ∧ (8 < st.castDraws ∨ 8 < st.loadDraws ∨ 8 < st.stripDraws ∨ 100 < st.tolerance)) ∨
        (id = 12 ∧ 65535 < st.seed) ∨ (id = 13 ∧ (st.terminal = 0 ∨ 255 < st.terminal)) ∨ (id = 14 ∧ 4294967295 < st.code)
      let wrong := clash ∨ outside
      (wrong → say .excise .badArgument) ∧
      (¬ wrong → s.excise.avail < changes.length → exec (.tableCommit r) s =
        .next (((s.received .excise).post .excise .excise 0 3 (s.excise.free : Nat)).replies r 1 2 .exciseFull)) ∧
      (¬ wrong → changes.length ≤ s.excise.avail → s.excise.now.next + 4 < max32 → s.noScan = true →
        let begun := (s.received .excise).onMgmt fun m => { m with
          excise := some { src := r.src.toNat, seq := r.seq.toNat, cls := 1, code := 2 } }
        let written := changes.zipIdx.foldl (fun u p => u.writeEntry
          { number := 0, kind := 9, quantity := p.1, a0 := id.toNat, a1 := p.2 }) begun
        let t := s.excise.now.tables
        let adopted : ExciseTables :=
          if id = 11 then { t with
            castDraws := st.castDraws, loadDraws := st.loadDraws, stripDraws := st.stripDraws, tolerance := st.tolerance }
          else if id = 12 then { t with seed := st.seed }
          else if id = 13 then { t with terminal := st.terminal }
          else { t with code := st.code }
        exec (.tableCommit r) s = .next ((written.onExcise fun e => { e with
          now := { e.now with tables := adopted, gen := if id = 12 then st.seed else e.now.gen } }).closeEvent true)))

/-! ## Requests: the part (R168, R182, R183, R185, R187, R188) -/

/-- R185: plant time is not set after a reset. SET PLANT TIME sets the day and the second with tenths 0; from the
excise terminal it is NOT_PERMITTED, and a second beyond the day is BAD_ARGUMENT. Set plant time goes on with every
tenth of a second, as a count of tenths that wraps after day 65535. That TIME_BASE_MARK brings the tenth is the
model's choice (assumption 18). -/
def Obligations.PlantTimeIsSetAndCounts : Prop :=
  (∀ (s : State) (c : Instr), (c = .powerOnReset ∨ (c = .commandedReset ∧ s.mgmt.resetDue = true)) →
    ∃ t, exec c s = .next t ∧ t.clock.plant = none) ∧
  (∀ (s : State) (r : Request) (a b c d e : Byte), r.args = [a, b, c, d, e] →
    let second := c.toNat * 65536 + d.toNat * 256 + e.toNat
    (s.takes .excise r = true →
      exec (.partSetPlantTime r) s = .next ((s.received .excise).replies r 7 2 .notPermitted)) ∧
    (s.takes .plant r = true → 86399 < second →
      exec (.partSetPlantTime r) s = .next ((s.received .plant).replies r 7 2 .badArgument)) ∧
    (s.takes .plant r = true → second ≤ 86399 →
      exec (.partSetPlantTime r) s = .next (((s.received .plant).onClock fun k => { k with
        plant := some { day := a.toNat * 256 + b.toNat, second := second, tenth := 0 } }).replies r 7 2 .ok))) ∧
  (∀ s : State, s.tick.clock.plant = s.clock.plant.map PlantTime.tick ∧
    (s.work = [] → s.field.busy = true → ∃ t, exec .timeBaseMark s = .next t ∧ t.clock = s.tick.clock)) ∧
  ∀ p : PlantTime, p.day < 65536 → p.second < 86400 → p.tenth < 10 →
    p.tick.day < 65536 ∧ p.tick.second < 86400 ∧ p.tick.tenth < 10 ∧
      (p.tick.day * 86400 + p.tick.second) * 10 + p.tick.tenth =
        ((p.day * 86400 + p.second) * 10 + p.tenth + 1) % (65536 * 86400 * 10)

/-- R187, R188: CLEAR COUNTERS sets every count of Table 11-7 to 0
and leaves lengths and the cycle number; RESET stops the taking of requests and stays in progress with its reply OK. -/
def Obligations.PartRequestsActOnThePart : Prop :=
  ∀ (s : State) (r : Request), s.takes .plant r = true →
    (r.args = [] → exec (.partClearCounters r) s = .next (((((((((s.received .plant).onIntake fun i => { i with
      unmapped := 0 }).onTurner 0 fun x => { x with clamps := 0, ambiguous := 0, slips := 0 }).onTurner 1 fun x => { x with
        clamps := 0, ambiguous := 0, slips := 0 }).onFilter fun f => { f with refused := 0, stray := 0 }).onTrunk fun t =>
          { t with checkErrors := 0, lengthErrors := 0, notTaken := 0, drops := 0, refusalLoss := 0 }).onField fun f => { f with
            checkErrors := 0, lengthErrors := 0, overruns := 0, unexpected := 0, late := 0, lost := 0 }).onMgmt fun m =>
              { m with unknown := 0 }).replies r 7 4 .ok)) ∧
    (r.args = [] → exec (.partReset r) s = .next (((s.received .plant).onMgmt fun m => { m with
      plant := some { src := r.src.toNat, seq := r.seq.toNat, cls := 7, code := 5 }, stopped := true }).formReply
        r.src.toNat r.seq.toNat 7 5 .ok 0 [] true))

/-- R150, R168, R182, R183, R188: a payload that is shorter than 2 bytes or names no request is answered UNKNOWN_REQUEST, with
class and code 0 where it carries none, and nothing is executed. A request is not taken without a free reply place or after
PART RESET; one of an unknown originator is counted; one of an originator with a request in progress is answered BUSY with
that request's class and code: shown for PART READ STATUS from sources other than the plant controller. That a request of
the excise terminal reloads the idle timer also where it is answered UNKNOWN_REQUEST or BUSY (R150) is the model's inference
(assumption 25), and that BUSY is answered whatever the length of the arguments is the model's choice (assumption 24). -/
def Obligations.RequestsAreTurnedAway : Prop :=
  (∀ (s : State) (o : Originator) (src seq : Byte) (p : List Byte), s.takes o { src, seq, args := [] } = true →
    p.length ≤ 48 → namesRequest p = false →
    let cls := match p with
      | c :: _ => c.toNat
      | [] => 0
    let code := match p with
      | _ :: d :: _ => d.toNat
      | _ => 0
    exec (.unknownRequest src seq p) s =
      .next ((s.received o).replies { src, seq, args := [] } cls code .unknownRequest)) ∧
  ∀ (s : State) (r : Request), s.work = [] → r.wf = true → r.src.toNat ≠ s.plantAddr →
    ((s.mgmt.stopped = true ∨ 4 ≤ s.trunk.placesUsed) → exec (.partReadStatus r) s =
      .next (s.onTrunk fun t => { t with notTaken := satAdd max16 t.notTaken 1 })) ∧
    (s.mgmt.stopped = false → s.trunk.placesUsed < 4 → r.src.toNat ≠ s.terminalAddr → exec (.partReadStatus r) s =
      .next (s.onMgmt fun m => { m with unknown := satAdd max16 m.unknown 1 })) ∧
    (∀ p, s.mgmt.stopped = false → s.trunk.placesUsed < 4 → r.src.toNat = s.terminalAddr → s.mgmt.excise = some p →
      exec (.partReadStatus r) s = .next ((s.received .excise).formReply r.src.toNat r.seq.toNat 7 1 .busy 0
        [some (BitVec.ofNat 8 p.cls), some (BitVec.ofNat 8 p.code)] false))
end

