-- ==== Sys2Proof/Laws/State.lean ====
section
/-! SUPPORT. Laws/State.lean: what each update of a block leaves of every field of State and of every shared reader: one
lemma per field per update, true by rfl. -/

namespace Sys2Proof.Machine

/-! ## Banks of records -/

@[simp] theorem bank_onBank_same {α : Type} {n : Nat} (v : Vector α n) (i : Fin n) (f : α → α) :
    bank (onBank v i f) i = f (bank v i) := by simp [bank, onBank]

theorem bank_onBank_ne {α : Type} {n : Nat} (v : Vector α n) {i j : Fin n} (h : j ≠ i) (f : α → α) :
    bank (onBank v i f) j = bank v j := by
  have h' : i.val ≠ j.val := fun e => h (Fin.ext e.symm)
  simp [bank, onBank, h']

theorem bank_onBank {α : Type} {n : Nat} (v : Vector α n) (i j : Fin n) (f : α → α) :
    bank (onBank v i f) j = if j = i then f (bank v j) else bank v j := by
  by_cases h : j = i
  · subst h; simp
  · simp [bank_onBank_ne v h f, h]


/-! ## onClock -/

@[simp] theorem State.onClock_clock (s : State) (f : Clock → Clock) : (s.onClock f).clock = f s.clock := rfl
@[simp] theorem State.onClock_trunk (s : State) (f : Clock → Clock) : (s.onClock f).trunk = s.trunk := rfl
@[simp] theorem State.onClock_notices (s : State) (f : Clock → Clock) : (s.onClock f).notices = s.notices := rfl
@[simp] theorem State.onClock_field (s : State) (f : Clock → Clock) : (s.onClock f).field = s.field := rfl
@[simp] theorem State.onClock_intake (s : State) (f : Clock → Clock) : (s.onClock f).intake = s.intake := rfl
@[simp] theorem State.onClock_staged (s : State) (f : Clock → Clock) : (s.onClock f).staged = s.staged := rfl
@[simp] theorem State.onClock_tables (s : State) (f : Clock → Clock) : (s.onClock f).tables = s.tables := rfl
@[simp] theorem State.onClock_vessels (s : State) (f : Clock → Clock) : (s.onClock f).vessels = s.vessels := rfl
@[simp] theorem State.onClock_steeps (s : State) (f : Clock → Clock) : (s.onClock f).steeps = s.steeps := rfl
@[simp] theorem State.onClock_comps (s : State) (f : Clock → Clock) : (s.onClock f).comps = s.comps := rfl
@[simp] theorem State.onClock_turners (s : State) (f : Clock → Clock) : (s.onClock f).turners = s.turners := rfl
@[simp] theorem State.onClock_kilns (s : State) (f : Clock → Clock) : (s.onClock f).kilns = s.kilns := rfl
@[simp] theorem State.onClock_batch (s : State) (f : Clock → Clock) : (s.onClock f).batch = s.batch := rfl
@[simp] theorem State.onClock_transfer (s : State) (f : Clock → Clock) : (s.onClock f).transfer = s.transfer := rfl
@[simp] theorem State.onClock_excise (s : State) (f : Clock → Clock) : (s.onClock f).excise = s.excise := rfl
@[simp] theorem State.onClock_filter (s : State) (f : Clock → Clock) : (s.onClock f).filter = s.filter := rfl
@[simp] theorem State.onClock_mgmt (s : State) (f : Clock → Clock) : (s.onClock f).mgmt = s.mgmt := rfl
@[simp] theorem State.onClock_work (s : State) (f : Clock → Clock) : (s.onClock f).work = s.work := rfl
@[simp] theorem State.onClock_draws (s : State) (f : Clock → Clock) : (s.onClock f).draws = s.draws := rfl
@[simp] theorem State.onClock_pending (s : State) (f : Clock → Clock) : (s.onClock f).pending = s.pending := rfl
@[simp] theorem State.onClock_vessel (s : State) (f : Clock → Clock) (j : Fin 12) : (s.onClock f).vessel j = s.vessel j := rfl
@[simp] theorem State.onClock_steep (s : State) (f : Clock → Clock) (j : Fin 4) : (s.onClock f).steep j = s.steep j := rfl
@[simp] theorem State.onClock_comp (s : State) (f : Clock → Clock) (j : Fin 6) : (s.onClock f).comp j = s.comp j := rfl
@[simp] theorem State.onClock_turner (s : State) (f : Clock → Clock) (j : Fin 2) : (s.onClock f).turner j = s.turner j := rfl
@[simp] theorem State.onClock_kiln (s : State) (f : Clock → Clock) (j : Fin 2) : (s.onClock f).kiln j = s.kiln j := rfl
@[simp] theorem State.onClock_ownAddr (s : State) (f : Clock → Clock) : (s.onClock f).ownAddr = s.ownAddr := rfl
@[simp] theorem State.onClock_plantAddr (s : State) (f : Clock → Clock) : (s.onClock f).plantAddr = s.plantAddr := rfl
@[simp] theorem State.onClock_silenceTenths (s : State) (f : Clock → Clock) : (s.onClock f).silenceTenths = s.silenceTenths := rfl
@[simp] theorem State.onClock_budget (s : State) (f : Clock → Clock) : (s.onClock f).budget = s.budget := rfl
@[simp] theorem State.onClock_terminalAddr (s : State) (f : Clock → Clock) : (s.onClock f).terminalAddr = s.terminalAddr := rfl

/-! ## onTrunk -/

@[simp] theorem State.onTrunk_clock (s : State) (f : Trunk → Trunk) : (s.onTrunk f).clock = s.clock := rfl
@[simp] theorem State.onTrunk_trunk (s : State) (f : Trunk → Trunk) : (s.onTrunk f).trunk = f s.trunk := rfl
@[simp] theorem State.onTrunk_notices (s : State) (f : Trunk → Trunk) : (s.onTrunk f).notices = s.notices := rfl
@[simp] theorem State.onTrunk_field (s : State) (f : Trunk → Trunk) : (s.onTrunk f).field = s.field := rfl
@[simp] theorem State.onTrunk_intake (s : State) (f : Trunk → Trunk) : (s.onTrunk f).intake = s.intake := rfl
@[simp] theorem State.onTrunk_staged (s : State) (f : Trunk → Trunk) : (s.onTrunk f).staged = s.staged := rfl
@[simp] theorem State.onTrunk_tables (s : State) (f : Trunk → Trunk) : (s.onTrunk f).tables = s.tables := rfl
@[simp] theorem State.onTrunk_vessels (s : State) (f : Trunk → Trunk) : (s.onTrunk f).vessels = s.vessels := rfl
@[simp] theorem State.onTrunk_steeps (s : State) (f : Trunk → Trunk) : (s.onTrunk f).steeps = s.steeps := rfl
@[simp] theorem State.onTrunk_comps (s : State) (f : Trunk → Trunk) : (s.onTrunk f).comps = s.comps := rfl
@[simp] theorem State.onTrunk_turners (s : State) (f : Trunk → Trunk) : (s.onTrunk f).turners = s.turners := rfl
@[simp] theorem State.onTrunk_kilns (s : State) (f : Trunk → Trunk) : (s.onTrunk f).kilns = s.kilns := rfl
@[simp] theorem State.onTrunk_batch (s : State) (f : Trunk → Trunk) : (s.onTrunk f).batch = s.batch := rfl
@[simp] theorem State.onTrunk_transfer (s : State) (f : Trunk → Trunk) : (s.onTrunk f).transfer = s.transfer := rfl
@[simp] theorem State.onTrunk_excise (s : State) (f : Trunk → Trunk) : (s.onTrunk f).excise = s.excise := rfl
@[simp] theorem State.onTrunk_filter (s : State) (f : Trunk → Trunk) : (s.onTrunk f).filter = s.filter := rfl
@[simp] theorem State.onTrunk_mgmt (s : State) (f : Trunk → Trunk) : (s.onTrunk f).mgmt = s.mgmt := rfl
@[simp] theorem State.onTrunk_work (s : State) (f : Trunk → Trunk) : (s.onTrunk f).work = s.work := rfl
@[simp] theorem State.onTrunk_draws (s : State) (f : Trunk → Trunk) : (s.onTrunk f).draws = s.draws := rfl
@[simp] theorem State.onTrunk_pending (s : State) (f : Trunk → Trunk) : (s.onTrunk f).pending = s.pending := rfl
@[simp] theorem State.onTrunk_vessel (s : State) (f : Trunk → Trunk) (j : Fin 12) : (s.onTrunk f).vessel j = s.vessel j := rfl
@[simp] theorem State.onTrunk_steep (s : State) (f : Trunk → Trunk) (j : Fin 4) : (s.onTrunk f).steep j = s.steep j := rfl
@[simp] theorem State.onTrunk_comp (s : State) (f : Trunk → Trunk) (j : Fin 6) : (s.onTrunk f).comp j = s.comp j := rfl
@[simp] theorem State.onTrunk_turner (s : State) (f : Trunk → Trunk) (j : Fin 2) : (s.onTrunk f).turner j = s.turner j := rfl
@[simp] theorem State.onTrunk_kiln (s : State) (f : Trunk → Trunk) (j : Fin 2) : (s.onTrunk f).kiln j = s.kiln j := rfl
@[simp] theorem State.onTrunk_timeNow (s : State) (f : Trunk → Trunk) : (s.onTrunk f).timeNow = s.timeNow := rfl
@[simp] theorem State.onTrunk_ownAddr (s : State) (f : Trunk → Trunk) : (s.onTrunk f).ownAddr = s.ownAddr := rfl
@[simp] theorem State.onTrunk_plantAddr (s : State) (f : Trunk → Trunk) : (s.onTrunk f).plantAddr = s.plantAddr := rfl
@[simp] theorem State.onTrunk_silenceTenths (s : State) (f : Trunk → Trunk) : (s.onTrunk f).silenceTenths = s.silenceTenths := rfl
@[simp] theorem State.onTrunk_budget (s : State) (f : Trunk → Trunk) : (s.onTrunk f).budget = s.budget := rfl
@[simp] theorem State.onTrunk_terminalAddr (s : State) (f : Trunk → Trunk) : (s.onTrunk f).terminalAddr = s.terminalAddr := rfl

/-! ## onNotices -/

@[simp] theorem State.onNotices_clock (s : State) (f : Notices → Notices) : (s.onNotices f).clock = s.clock := rfl
@[simp] theorem State.onNotices_trunk (s : State) (f : Notices → Notices) : (s.onNotices f).trunk = s.trunk := rfl
@[simp] theorem State.onNotices_notices (s : State) (f : Notices → Notices) : (s.onNotices f).notices = f s.notices := rfl
@[simp] theorem State.onNotices_field (s : State) (f : Notices → Notices) : (s.onNotices f).field = s.field := rfl
@[simp] theorem State.onNotices_intake (s : State) (f : Notices → Notices) : (s.onNotices f).intake = s.intake := rfl
@[simp] theorem State.onNotices_staged (s : State) (f : Notices → Notices) : (s.onNotices f).staged = s.staged := rfl
@[simp] theorem State.onNotices_tables (s : State) (f : Notices → Notices) : (s.onNotices f).tables = s.tables := rfl
@[simp] theorem State.onNotices_vessels (s : State) (f : Notices → Notices) : (s.onNotices f).vessels = s.vessels := rfl
@[simp] theorem State.onNotices_steeps (s : State) (f : Notices → Notices) : (s.onNotices f).steeps = s.steeps := rfl
@[simp] theorem State.onNotices_comps (s : State) (f : Notices → Notices) : (s.onNotices f).comps = s.comps := rfl
@[simp] theorem State.onNotices_turners (s : State) (f : Notices → Notices) : (s.onNotices f).turners = s.turners := rfl
@[simp] theorem State.onNotices_kilns (s : State) (f : Notices → Notices) : (s.onNotices f).kilns = s.kilns := rfl
@[simp] theorem State.onNotices_batch (s : State) (f : Notices → Notices) : (s.onNotices f).batch = s.batch := rfl
@[simp] theorem State.onNotices_transfer (s : State) (f : Notices → Notices) : (s.onNotices f).transfer = s.transfer := rfl
@[simp] theorem State.onNotices_excise (s : State) (f : Notices → Notices) : (s.onNotices f).excise = s.excise := rfl
@[simp] theorem State.onNotices_filter (s : State) (f : Notices → Notices) : (s.onNotices f).filter = s.filter := rfl
@[simp] theorem State.onNotices_mgmt (s : State) (f : Notices → Notices) : (s.onNotices f).mgmt = s.mgmt := rfl
@[simp] theorem State.onNotices_work (s : State) (f : Notices → Notices) : (s.onNotices f).work = s.work := rfl
@[simp] theorem State.onNotices_draws (s : State) (f : Notices → Notices) : (s.onNotices f).draws = s.draws := rfl
@[simp] theorem State.onNotices_pending (s : State) (f : Notices → Notices) : (s.onNotices f).pending = s.pending := rfl
@[simp] theorem State.onNotices_vessel (s : State) (f : Notices → Notices) (j : Fin 12) : (s.onNotices f).vessel j = s.vessel j := rfl
@[simp] theorem State.onNotices_steep (s : State) (f : Notices → Notices) (j : Fin 4) : (s.onNotices f).steep j = s.steep j := rfl
@[simp] theorem State.onNotices_comp (s : State) (f : Notices → Notices) (j : Fin 6) : (s.onNotices f).comp j = s.comp j := rfl
@[simp] theorem State.onNotices_turner (s : State) (f : Notices → Notices) (j : Fin 2) : (s.onNotices f).turner j = s.turner j := rfl
@[simp] theorem State.onNotices_kiln (s : State) (f : Notices → Notices) (j : Fin 2) : (s.onNotices f).kiln j = s.kiln j := rfl
@[simp] theorem State.onNotices_timeNow (s : State) (f : Notices → Notices) : (s.onNotices f).timeNow = s.timeNow := rfl
@[simp] theorem State.onNotices_ownAddr (s : State) (f : Notices → Notices) : (s.onNotices f).ownAddr = s.ownAddr := rfl
@[simp] theorem State.onNotices_plantAddr (s : State) (f : Notices → Notices) : (s.onNotices f).plantAddr = s.plantAddr := rfl
@[simp] theorem State.onNotices_silenceTenths (s : State) (f : Notices → Notices) : (s.onNotices f).silenceTenths = s.silenceTenths := rfl
@[simp] theorem State.onNotices_budget (s : State) (f : Notices → Notices) : (s.onNotices f).budget = s.budget := rfl
@[simp] theorem State.onNotices_terminalAddr (s : State) (f : Notices → Notices) : (s.onNotices f).terminalAddr = s.terminalAddr := rfl

/-! ## onField -/

@[simp] theorem State.onField_clock (s : State) (f : FieldLine → FieldLine) : (s.onField f).clock = s.clock := rfl
@[simp] theorem State.onField_trunk (s : State) (f : FieldLine → FieldLine) : (s.onField f).trunk = s.trunk := rfl
@[simp] theorem State.onField_notices (s : State) (f : FieldLine → FieldLine) : (s.onField f).notices = s.notices := rfl
@[simp] theorem State.onField_field (s : State) (f : FieldLine → FieldLine) : (s.onField f).field = f s.field := rfl
@[simp] theorem State.onField_intake (s : State) (f : FieldLine → FieldLine) : (s.onField f).intake = s.intake := rfl
@[simp] theorem State.onField_staged (s : State) (f : FieldLine → FieldLine) : (s.onField f).staged = s.staged := rfl
@[simp] theorem State.onField_tables (s : State) (f : FieldLine → FieldLine) : (s.onField f).tables = s.tables := rfl
@[simp] theorem State.onField_vessels (s : State) (f : FieldLine → FieldLine) : (s.onField f).vessels = s.vessels := rfl
@[simp] theorem State.onField_steeps (s : State) (f : FieldLine → FieldLine) : (s.onField f).steeps = s.steeps := rfl
@[simp] theorem State.onField_comps (s : State) (f : FieldLine → FieldLine) : (s.onField f).comps = s.comps := rfl
@[simp] theorem State.onField_turners (s : State) (f : FieldLine → FieldLine) : (s.onField f).turners = s.turners := rfl
@[simp] theorem State.onField_kilns (s : State) (f : FieldLine → FieldLine) : (s.onField f).kilns = s.kilns := rfl
@[simp] theorem State.onField_batch (s : State) (f : FieldLine → FieldLine) : (s.onField f).batch = s.batch := rfl
@[simp] theorem State.onField_transfer (s : State) (f : FieldLine → FieldLine) : (s.onField f).transfer = s.transfer := rfl
@[simp] theorem State.onField_excise (s : State) (f : FieldLine → FieldLine) : (s.onField f).excise = s.excise := rfl
@[simp] theorem State.onField_filter (s : State) (f : FieldLine → FieldLine) : (s.onField f).filter = s.filter := rfl
@[simp] theorem State.onField_mgmt (s : State) (f : FieldLine → FieldLine) : (s.onField f).mgmt = s.mgmt := rfl
@[simp] theorem State.onField_work (s : State) (f : FieldLine → FieldLine) : (s.onField f).work = s.work := rfl
@[simp] theorem State.onField_draws (s : State) (f : FieldLine → FieldLine) : (s.onField f).draws = s.draws := rfl
@[simp] theorem State.onField_pending (s : State) (f : FieldLine → FieldLine) : (s.onField f).pending = s.pending := rfl
@[simp] theorem State.onField_vessel (s : State) (f : FieldLine → FieldLine) (j : Fin 12) : (s.onField f).vessel j = s.vessel j := rfl
@[simp] theorem State.onField_steep (s : State) (f : FieldLine → FieldLine) (j : Fin 4) : (s.onField f).steep j = s.steep j := rfl
@[simp] theorem State.onField_comp (s : State) (f : FieldLine → FieldLine) (j : Fin 6) : (s.onField f).comp j = s.comp j := rfl
@[simp] theorem State.onField_turner (s : State) (f : FieldLine → FieldLine) (j : Fin 2) : (s.onField f).turner j = s.turner j := rfl
@[simp] theorem State.onField_kiln (s : State) (f : FieldLine → FieldLine) (j : Fin 2) : (s.onField f).kiln j = s.kiln j := rfl
@[simp] theorem State.onField_timeNow (s : State) (f : FieldLine → FieldLine) : (s.onField f).timeNow = s.timeNow := rfl
@[simp] theorem State.onField_ownAddr (s : State) (f : FieldLine → FieldLine) : (s.onField f).ownAddr = s.ownAddr := rfl
@[simp] theorem State.onField_plantAddr (s : State) (f : FieldLine → FieldLine) : (s.onField f).plantAddr = s.plantAddr := rfl
@[simp] theorem State.onField_silenceTenths (s : State) (f : FieldLine → FieldLine) : (s.onField f).silenceTenths = s.silenceTenths := rfl
@[simp] theorem State.onField_budget (s : State) (f : FieldLine → FieldLine) : (s.onField f).budget = s.budget := rfl
@[simp] theorem State.onField_terminalAddr (s : State) (f : FieldLine → FieldLine) : (s.onField f).terminalAddr = s.terminalAddr := rfl

/-! ## onIntake -/

@[simp] theorem State.onIntake_clock (s : State) (f : Intake → Intake) : (s.onIntake f).clock = s.clock := rfl
@[simp] theorem State.onIntake_trunk (s : State) (f : Intake → Intake) : (s.onIntake f).trunk = s.trunk := rfl
@[simp] theorem State.onIntake_notices (s : State) (f : Intake → Intake) : (s.onIntake f).notices = s.notices := rfl
@[simp] theorem State.onIntake_field (s : State) (f : Intake → Intake) : (s.onIntake f).field = s.field := rfl
@[simp] theorem State.onIntake_intake (s : State) (f : Intake → Intake) : (s.onIntake f).intake = f s.intake := rfl
@[simp] theorem State.onIntake_staged (s : State) (f : Intake → Intake) : (s.onIntake f).staged = s.staged := rfl
@[simp] theorem State.onIntake_tables (s : State) (f : Intake → Intake) : (s.onIntake f).tables = s.tables := rfl
@[simp] theorem State.onIntake_vessels (s : State) (f : Intake → Intake) : (s.onIntake f).vessels = s.vessels := rfl
@[simp] theorem State.onIntake_steeps (s : State) (f : Intake → Intake) : (s.onIntake f).steeps = s.steeps := rfl
@[simp] theorem State.onIntake_comps (s : State) (f : Intake → Intake) : (s.onIntake f).comps = s.comps := rfl
@[simp] theorem State.onIntake_turners (s : State) (f : Intake → Intake) : (s.onIntake f).turners = s.turners := rfl
@[simp] theorem State.onIntake_kilns (s : State) (f : Intake → Intake) : (s.onIntake f).kilns = s.kilns := rfl
@[simp] theorem State.onIntake_batch (s : State) (f : Intake → Intake) : (s.onIntake f).batch = s.batch := rfl
@[simp] theorem State.onIntake_transfer (s : State) (f : Intake → Intake) : (s.onIntake f).transfer = s.transfer := rfl
@[simp] theorem State.onIntake_excise (s : State) (f : Intake → Intake) : (s.onIntake f).excise = s.excise := rfl
@[simp] theorem State.onIntake_filter (s : State) (f : Intake → Intake) : (s.onIntake f).filter = s.filter := rfl
@[simp] theorem State.onIntake_mgmt (s : State) (f : Intake → Intake) : (s.onIntake f).mgmt = s.mgmt := rfl
@[simp] theorem State.onIntake_work (s : State) (f : Intake → Intake) : (s.onIntake f).work = s.work := rfl
@[simp] theorem State.onIntake_draws (s : State) (f : Intake → Intake) : (s.onIntake f).draws = s.draws := rfl
@[simp] theorem State.onIntake_pending (s : State) (f : Intake → Intake) : (s.onIntake f).pending = s.pending := rfl
@[simp] theorem State.onIntake_vessel (s : State) (f : Intake → Intake) (j : Fin 12) : (s.onIntake f).vessel j = s.vessel j := rfl
@[simp] theorem State.onIntake_steep (s : State) (f : Intake → Intake) (j : Fin 4) : (s.onIntake f).steep j = s.steep j := rfl
@[simp] theorem State.onIntake_comp (s : State) (f : Intake → Intake) (j : Fin 6) : (s.onIntake f).comp j = s.comp j := rfl
@[simp] theorem State.onIntake_turner (s : State) (f : Intake → Intake) (j : Fin 2) : (s.onIntake f).turner j = s.turner j := rfl
@[simp] theorem State.onIntake_kiln (s : State) (f : Intake → Intake) (j : Fin 2) : (s.onIntake f).kiln j = s.kiln j := rfl
@[simp] theorem State.onIntake_timeNow (s : State) (f : Intake → Intake) : (s.onIntake f).timeNow = s.timeNow := rfl
@[simp] theorem State.onIntake_ownAddr (s : State) (f : Intake → Intake) : (s.onIntake f).ownAddr = s.ownAddr := rfl
@[simp] theorem State.onIntake_plantAddr (s : State) (f : Intake → Intake) : (s.onIntake f).plantAddr = s.plantAddr := rfl
@[simp] theorem State.onIntake_silenceTenths (s : State) (f : Intake → Intake) : (s.onIntake f).silenceTenths = s.silenceTenths := rfl
@[simp] theorem State.onIntake_budget (s : State) (f : Intake → Intake) : (s.onIntake f).budget = s.budget := rfl
@[simp] theorem State.onIntake_terminalAddr (s : State) (f : Intake → Intake) : (s.onIntake f).terminalAddr = s.terminalAddr := rfl

/-! ## onStaged -/

@[simp] theorem State.onStaged_clock (s : State) (f : Tables → Tables) : (s.onStaged f).clock = s.clock := rfl
@[simp] theorem State.onStaged_trunk (s : State) (f : Tables → Tables) : (s.onStaged f).trunk = s.trunk := rfl
@[simp] theorem State.onStaged_notices (s : State) (f : Tables → Tables) : (s.onStaged f).notices = s.notices := rfl
@[simp] theorem State.onStaged_field (s : State) (f : Tables → Tables) : (s.onStaged f).field = s.field := rfl
@[simp] theorem State.onStaged_intake (s : State) (f : Tables → Tables) : (s.onStaged f).intake = s.intake := rfl
@[simp] theorem State.onStaged_staged (s : State) (f : Tables → Tables) : (s.onStaged f).staged = f s.staged := rfl
@[simp] theorem State.onStaged_tables (s : State) (f : Tables → Tables) : (s.onStaged f).tables = s.tables := rfl
@[simp] theorem State.onStaged_vessels (s : State) (f : Tables → Tables) : (s.onStaged f).vessels = s.vessels := rfl
@[simp] theorem State.onStaged_steeps (s : State) (f : Tables → Tables) : (s.onStaged f).steeps = s.steeps := rfl
@[simp] theorem State.onStaged_comps (s : State) (f : Tables → Tables) : (s.onStaged f).comps = s.comps := rfl
@[simp] theorem State.onStaged_turners (s : State) (f : Tables → Tables) : (s.onStaged f).turners = s.turners := rfl
@[simp] theorem State.onStaged_kilns (s : State) (f : Tables → Tables) : (s.onStaged f).kilns = s.kilns := rfl
@[simp] theorem State.onStaged_batch (s : State) (f : Tables → Tables) : (s.onStaged f).batch = s.batch := rfl
@[simp] theorem State.onStaged_transfer (s : State) (f : Tables → Tables) : (s.onStaged f).transfer = s.transfer := rfl
@[simp] theorem State.onStaged_excise (s : State) (f : Tables → Tables) : (s.onStaged f).excise = s.excise := rfl
@[simp] theorem State.onStaged_filter (s : State) (f : Tables → Tables) : (s.onStaged f).filter = s.filter := rfl
@[simp] theorem State.onStaged_mgmt (s : State) (f : Tables → Tables) : (s.onStaged f).mgmt = s.mgmt := rfl
@[simp] theorem State.onStaged_work (s : State) (f : Tables → Tables) : (s.onStaged f).work = s.work := rfl
@[simp] theorem State.onStaged_draws (s : State) (f : Tables → Tables) : (s.onStaged f).draws = s.draws := rfl
@[simp] theorem State.onStaged_pending (s : State) (f : Tables → Tables) : (s.onStaged f).pending = s.pending := rfl
@[simp] theorem State.onStaged_vessel (s : State) (f : Tables → Tables) (j : Fin 12) : (s.onStaged f).vessel j = s.vessel j := rfl
@[simp] theorem State.onStaged_steep (s : State) (f : Tables → Tables) (j : Fin 4) : (s.onStaged f).steep j = s.steep j := rfl
@[simp] theorem State.onStaged_comp (s : State) (f : Tables → Tables) (j : Fin 6) : (s.onStaged f).comp j = s.comp j := rfl
@[simp] theorem State.onStaged_turner (s : State) (f : Tables → Tables) (j : Fin 2) : (s.onStaged f).turner j = s.turner j := rfl
@[simp] theorem State.onStaged_kiln (s : State) (f : Tables → Tables) (j : Fin 2) : (s.onStaged f).kiln j = s.kiln j := rfl
@[simp] theorem State.onStaged_timeNow (s : State) (f : Tables → Tables) : (s.onStaged f).timeNow = s.timeNow := rfl
@[simp] theorem State.onStaged_ownAddr (s : State) (f : Tables → Tables) : (s.onStaged f).ownAddr = s.ownAddr := rfl
@[simp] theorem State.onStaged_plantAddr (s : State) (f : Tables → Tables) : (s.onStaged f).plantAddr = s.plantAddr := rfl
@[simp] theorem State.onStaged_silenceTenths (s : State) (f : Tables → Tables) : (s.onStaged f).silenceTenths = s.silenceTenths := rfl
@[simp] theorem State.onStaged_budget (s : State) (f : Tables → Tables) : (s.onStaged f).budget = s.budget := rfl
@[simp] theorem State.onStaged_terminalAddr (s : State) (f : Tables → Tables) : (s.onStaged f).terminalAddr = s.terminalAddr := rfl

/-! ## onTables -/

@[simp] theorem State.onTables_clock (s : State) (f : Tables → Tables) : (s.onTables f).clock = s.clock := rfl
@[simp] theorem State.onTables_trunk (s : State) (f : Tables → Tables) : (s.onTables f).trunk = s.trunk := rfl
@[simp] theorem State.onTables_notices (s : State) (f : Tables → Tables) : (s.onTables f).notices = s.notices := rfl
@[simp] theorem State.onTables_field (s : State) (f : Tables → Tables) : (s.onTables f).field = s.field := rfl
@[simp] theorem State.onTables_intake (s : State) (f : Tables → Tables) : (s.onTables f).intake = s.intake := rfl
@[simp] theorem State.onTables_staged (s : State) (f : Tables → Tables) : (s.onTables f).staged = s.staged := rfl
@[simp] theorem State.onTables_tables (s : State) (f : Tables → Tables) : (s.onTables f).tables = f s.tables := rfl
@[simp] theorem State.onTables_vessels (s : State) (f : Tables → Tables) : (s.onTables f).vessels = s.vessels := rfl
@[simp] theorem State.onTables_steeps (s : State) (f : Tables → Tables) : (s.onTables f).steeps = s.steeps := rfl
@[simp] theorem State.onTables_comps (s : State) (f : Tables → Tables) : (s.onTables f).comps = s.comps := rfl
@[simp] theorem State.onTables_turners (s : State) (f : Tables → Tables) : (s.onTables f).turners = s.turners := rfl
@[simp] theorem State.onTables_kilns (s : State) (f : Tables → Tables) : (s.onTables f).kilns = s.kilns := rfl
@[simp] theorem State.onTables_batch (s : State) (f : Tables → Tables) : (s.onTables f).batch = s.batch := rfl
@[simp] theorem State.onTables_transfer (s : State) (f : Tables → Tables) : (s.onTables f).transfer = s.transfer := rfl
@[simp] theorem State.onTables_excise (s : State) (f : Tables → Tables) : (s.onTables f).excise = s.excise := rfl
@[simp] theorem State.onTables_filter (s : State) (f : Tables → Tables) : (s.onTables f).filter = s.filter := rfl
@[simp] theorem State.onTables_mgmt (s : State) (f : Tables → Tables) : (s.onTables f).mgmt = s.mgmt := rfl
@[simp] theorem State.onTables_work (s : State) (f : Tables → Tables) : (s.onTables f).work = s.work := rfl
@[simp] theorem State.onTables_draws (s : State) (f : Tables → Tables) : (s.onTables f).draws = s.draws := rfl
@[simp] theorem State.onTables_pending (s : State) (f : Tables → Tables) : (s.onTables f).pending = s.pending := rfl
@[simp] theorem State.onTables_vessel (s : State) (f : Tables → Tables) (j : Fin 12) : (s.onTables f).vessel j = s.vessel j := rfl
@[simp] theorem State.onTables_steep (s : State) (f : Tables → Tables) (j : Fin 4) : (s.onTables f).steep j = s.steep j := rfl
@[simp] theorem State.onTables_comp (s : State) (f : Tables → Tables) (j : Fin 6) : (s.onTables f).comp j = s.comp j := rfl
@[simp] theorem State.onTables_turner (s : State) (f : Tables → Tables) (j : Fin 2) : (s.onTables f).turner j = s.turner j := rfl
@[simp] theorem State.onTables_kiln (s : State) (f : Tables → Tables) (j : Fin 2) : (s.onTables f).kiln j = s.kiln j := rfl
@[simp] theorem State.onTables_timeNow (s : State) (f : Tables → Tables) : (s.onTables f).timeNow = s.timeNow := rfl
@[simp] theorem State.onTables_terminalAddr (s : State) (f : Tables → Tables) : (s.onTables f).terminalAddr = s.terminalAddr := rfl

/-! ## onVessel -/

@[simp] theorem State.onVessel_clock (s : State) (i : Fin 12) (f : VesselRec → VesselRec) : (s.onVessel i f).clock = s.clock := rfl
@[simp] theorem State.onVessel_trunk (s : State) (i : Fin 12) (f : VesselRec → VesselRec) : (s.onVessel i f).trunk = s.trunk := rfl
@[simp] theorem State.onVessel_notices (s : State) (i : Fin 12) (f : VesselRec → VesselRec) : (s.onVessel i f).notices = s.notices := rfl
@[simp] theorem State.onVessel_field (s : State) (i : Fin 12) (f : VesselRec → VesselRec) : (s.onVessel i f).field = s.field := rfl
@[simp] theorem State.onVessel_intake (s : State) (i : Fin 12) (f : VesselRec → VesselRec) : (s.onVessel i f).intake = s.intake := rfl
@[simp] theorem State.onVessel_staged (s : State) (i : Fin 12) (f : VesselRec → VesselRec) : (s.onVessel i f).staged = s.staged := rfl
@[simp] theorem State.onVessel_tables (s : State) (i : Fin 12) (f : VesselRec → VesselRec) : (s.onVessel i f).tables = s.tables := rfl
@[simp] theorem State.onVessel_vessels (s : State) (i : Fin 12) (f : VesselRec → VesselRec) : (s.onVessel i f).vessels = onBank s.vessels i f := rfl
@[simp] theorem State.onVessel_steeps (s : State) (i : Fin 12) (f : VesselRec → VesselRec) : (s.onVessel i f).steeps = s.steeps := rfl
@[simp] theorem State.onVessel_comps (s : State) (i : Fin 12) (f : VesselRec → VesselRec) : (s.onVessel i f).comps = s.comps := rfl
@[simp] theorem State.onVessel_turners (s : State) (i : Fin 12) (f : VesselRec → VesselRec) : (s.onVessel i f).turners = s.turners := rfl
@[simp] theorem State.onVessel_kilns (s : State) (i : Fin 12) (f : VesselRec → VesselRec) : (s.onVessel i f).kilns = s.kilns := rfl
@[simp] theorem State.onVessel_batch (s : State) (i : Fin 12) (f : VesselRec → VesselRec) : (s.onVessel i f).batch = s.batch := rfl
@[simp] theorem State.onVessel_transfer (s : State) (i : Fin 12) (f : VesselRec → VesselRec) : (s.onVessel i f).transfer = s.transfer := rfl
@[simp] theorem State.onVessel_excise (s : State) (i : Fin 12) (f : VesselRec → VesselRec) : (s.onVessel i f).excise = s.excise := rfl
@[simp] theorem State.onVessel_filter (s : State) (i : Fin 12) (f : VesselRec → VesselRec) : (s.onVessel i f).filter = s.filter := rfl
@[simp] theorem State.onVessel_mgmt (s : State) (i : Fin 12) (f : VesselRec → VesselRec) : (s.onVessel i f).mgmt = s.mgmt := rfl
@[simp] theorem State.onVessel_work (s : State) (i : Fin 12) (f : VesselRec → VesselRec) : (s.onVessel i f).work = s.work := rfl
@[simp] theorem State.onVessel_draws (s : State) (i : Fin 12) (f : VesselRec → VesselRec) : (s.onVessel i f).draws = s.draws := rfl
@[simp] theorem State.onVessel_pending (s : State) (i : Fin 12) (f : VesselRec → VesselRec) : (s.onVessel i f).pending = s.pending := rfl
@[simp] theorem State.onVessel_vessel_same (s : State) (i : Fin 12) (f : VesselRec → VesselRec) : (s.onVessel i f).vessel i = f (s.vessel i) := by simp [State.vessel]
theorem State.onVessel_vessel_ne (s : State) {i j : Fin 12} (h : j ≠ i) (f : VesselRec → VesselRec) : (s.onVessel i f).vessel j = s.vessel j := by
  simp [State.vessel, bank_onBank_ne _ h]
theorem State.onVessel_vessel (s : State) (i j : Fin 12) (f : VesselRec → VesselRec) : (s.onVessel i f).vessel j = if j = i then f (s.vessel j) else s.vessel j := by
  simp [State.vessel, bank_onBank]
@[simp] theorem State.onVessel_steep (s : State) (i : Fin 12) (f : VesselRec → VesselRec) (j : Fin 4) : (s.onVessel i f).steep j = s.steep j := rfl
@[simp] theorem State.onVessel_comp (s : State) (i : Fin 12) (f : VesselRec → VesselRec) (j : Fin 6) : (s.onVessel i f).comp j = s.comp j := rfl
@[simp] theorem State.onVessel_turner (s : State) (i : Fin 12) (f : VesselRec → VesselRec) (j : Fin 2) : (s.onVessel i f).turner j = s.turner j := rfl
@[simp] theorem State.onVessel_kiln (s : State) (i : Fin 12) (f : VesselRec → VesselRec) (j : Fin 2) : (s.onVessel i f).kiln j = s.kiln j := rfl
@[simp] theorem State.onVessel_timeNow (s : State) (i : Fin 12) (f : VesselRec → VesselRec) : (s.onVessel i f).timeNow = s.timeNow := rfl
@[simp] theorem State.onVessel_ownAddr (s : State) (i : Fin 12) (f : VesselRec → VesselRec) : (s.onVessel i f).ownAddr = s.ownAddr := rfl
@[simp] theorem State.onVessel_plantAddr (s : State) (i : Fin 12) (f : VesselRec → VesselRec) : (s.onVessel i f).plantAddr = s.plantAddr := rfl
@[simp] theorem State.onVessel_silenceTenths (s : State) (i : Fin 12) (f : VesselRec → VesselRec) : (s.onVessel i f).silenceTenths = s.silenceTenths := rfl
@[simp] theorem State.onVessel_budget (s : State) (i : Fin 12) (f : VesselRec → VesselRec) : (s.onVessel i f).budget = s.budget := rfl
@[simp] theorem State.onVessel_terminalAddr (s : State) (i : Fin 12) (f : VesselRec → VesselRec) : (s.onVessel i f).terminalAddr = s.terminalAddr := rfl

/-! ## onSteep -/

@[simp] theorem State.onSteep_clock (s : State) (i : Fin 4) (f : Steep → Steep) : (s.onSteep i f).clock = s.clock := rfl
@[simp] theorem State.onSteep_trunk (s : State) (i : Fin 4) (f : Steep → Steep) : (s.onSteep i f).trunk = s.trunk := rfl
@[simp] theorem State.onSteep_notices (s : State) (i : Fin 4) (f : Steep → Steep) : (s.onSteep i f).notices = s.notices := rfl
@[simp] theorem State.onSteep_field (s : State) (i : Fin 4) (f : Steep → Steep) : (s.onSteep i f).field = s.field := rfl
@[simp] theorem State.onSteep_intake (s : State) (i : Fin 4) (f : Steep → Steep) : (s.onSteep i f).intake = s.intake := rfl
@[simp] theorem State.onSteep_staged (s : State) (i : Fin 4) (f : Steep → Steep) : (s.onSteep i f).staged = s.staged := rfl
@[simp] theorem State.onSteep_tables (s : State) (i : Fin 4) (f : Steep → Steep) : (s.onSteep i f).tables = s.tables := rfl
@[simp] theorem State.onSteep_vessels (s : State) (i : Fin 4) (f : Steep → Steep) : (s.onSteep i f).vessels = s.vessels := rfl
@[simp] theorem State.onSteep_steeps (s : State) (i : Fin 4) (f : Steep → Steep) : (s.onSteep i f).steeps = onBank s.steeps i f := rfl
@[simp] theorem State.onSteep_comps (s : State) (i : Fin 4) (f : Steep → Steep) : (s.onSteep i f).comps = s.comps := rfl
@[simp] theorem State.onSteep_turners (s : State) (i : Fin 4) (f : Steep → Steep) : (s.onSteep i f).turners = s.turners := rfl
@[simp] theorem State.onSteep_kilns (s : State) (i : Fin 4) (f : Steep → Steep) : (s.onSteep i f).kilns = s.kilns := rfl
@[simp] theorem State.onSteep_batch (s : State) (i : Fin 4) (f : Steep → Steep) : (s.onSteep i f).batch = s.batch := rfl
@[simp] theorem State.onSteep_transfer (s : State) (i : Fin 4) (f : Steep → Steep) : (s.onSteep i f).transfer = s.transfer := rfl
@[simp] theorem State.onSteep_excise (s : State) (i : Fin 4) (f : Steep → Steep) : (s.onSteep i f).excise = s.excise := rfl
@[simp] theorem State.onSteep_filter (s : State) (i : Fin 4) (f : Steep → Steep) : (s.onSteep i f).filter = s.filter := rfl
@[simp] theorem State.onSteep_mgmt (s : State) (i : Fin 4) (f : Steep → Steep) : (s.onSteep i f).mgmt = s.mgmt := rfl
@[simp] theorem State.onSteep_work (s : State) (i : Fin 4) (f : Steep → Steep) : (s.onSteep i f).work = s.work := rfl
@[simp] theorem State.onSteep_draws (s : State) (i : Fin 4) (f : Steep → Steep) : (s.onSteep i f).draws = s.draws := rfl
@[simp] theorem State.onSteep_pending (s : State) (i : Fin 4) (f : Steep → Steep) : (s.onSteep i f).pending = s.pending := rfl
@[simp] theorem State.onSteep_vessel (s : State) (i : Fin 4) (f : Steep → Steep) (j : Fin 12) : (s.onSteep i f).vessel j = s.vessel j := rfl
@[simp] theorem State.onSteep_steep_same (s : State) (i : Fin 4) (f : Steep → Steep) : (s.onSteep i f).steep i = f (s.steep i) := by simp [State.steep]
theorem State.onSteep_steep_ne (s : State) {i j : Fin 4} (h : j ≠ i) (f : Steep → Steep) : (s.onSteep i f).steep j = s.steep j := by
  simp [State.steep, bank_onBank_ne _ h]
theorem State.onSteep_steep (s : State) (i j : Fin 4) (f : Steep → Steep) : (s.onSteep i f).steep j = if j = i then f (s.steep j) else s.steep j := by
  simp [State.steep, bank_onBank]
@[simp] theorem State.onSteep_comp (s : State) (i : Fin 4) (f : Steep → Steep) (j : Fin 6) : (s.onSteep i f).comp j = s.comp j := rfl
@[simp] theorem State.onSteep_turner (s : State) (i : Fin 4) (f : Steep → Steep) (j : Fin 2) : (s.onSteep i f).turner j = s.turner j := rfl
@[simp] theorem State.onSteep_kiln (s : State) (i : Fin 4) (f : Steep → Steep) (j : Fin 2) : (s.onSteep i f).kiln j = s.kiln j := rfl
@[simp] theorem State.onSteep_timeNow (s : State) (i : Fin 4) (f : Steep → Steep) : (s.onSteep i f).timeNow = s.timeNow := rfl
@[simp] theorem State.onSteep_ownAddr (s : State) (i : Fin 4) (f : Steep → Steep) : (s.onSteep i f).ownAddr = s.ownAddr := rfl
@[simp] theorem State.onSteep_plantAddr (s : State) (i : Fin 4) (f : Steep → Steep) : (s.onSteep i f).plantAddr = s.plantAddr := rfl
@[simp] theorem State.onSteep_silenceTenths (s : State) (i : Fin 4) (f : Steep → Steep) : (s.onSteep i f).silenceTenths = s.silenceTenths := rfl
@[simp] theorem State.onSteep_budget (s : State) (i : Fin 4) (f : Steep → Steep) : (s.onSteep i f).budget = s.budget := rfl
@[simp] theorem State.onSteep_terminalAddr (s : State) (i : Fin 4) (f : Steep → Steep) : (s.onSteep i f).terminalAddr = s.terminalAddr := rfl

/-! ## onComp -/

@[simp] theorem State.onComp_clock (s : State) (i : Fin 6) (f : Comp → Comp) : (s.onComp i f).clock = s.clock := rfl
@[simp] theorem State.onComp_trunk (s : State) (i : Fin 6) (f : Comp → Comp) : (s.onComp i f).trunk = s.trunk := rfl
@[simp] theorem State.onComp_notices (s : State) (i : Fin 6) (f : Comp → Comp) : (s.onComp i f).notices = s.notices := rfl
@[simp] theorem State.onComp_field (s : State) (i : Fin 6) (f : Comp → Comp) : (s.onComp i f).field = s.field := rfl
@[simp] theorem State.onComp_intake (s : State) (i : Fin 6) (f : Comp → Comp) : (s.onComp i f).intake = s.intake := rfl
@[simp] theorem State.onComp_staged (s : State) (i : Fin 6) (f : Comp → Comp) : (s.onComp i f).staged = s.staged := rfl
@[simp] theorem State.onComp_tables (s : State) (i : Fin 6) (f : Comp → Comp) : (s.onComp i f).tables = s.tables := rfl
@[simp] theorem State.onComp_vessels (s : State) (i : Fin 6) (f : Comp → Comp) : (s.onComp i f).vessels = s.vessels := rfl
@[simp] theorem State.onComp_steeps (s : State) (i : Fin 6) (f : Comp → Comp) : (s.onComp i f).steeps = s.steeps := rfl
@[simp] theorem State.onComp_comps (s : State) (i : Fin 6) (f : Comp → Comp) : (s.onComp i f).comps = onBank s.comps i f := rfl
@[simp] theorem State.onComp_turners (s : State) (i : Fin 6) (f : Comp → Comp) : (s.onComp i f).turners = s.turners := rfl
@[simp] theorem State.onComp_kilns (s : State) (i : Fin 6) (f : Comp → Comp) : (s.onComp i f).kilns = s.kilns := rfl
@[simp] theorem State.onComp_batch (s : State) (i : Fin 6) (f : Comp → Comp) : (s.onComp i f).batch = s.batch := rfl
@[simp] theorem State.onComp_transfer (s : State) (i : Fin 6) (f : Comp → Comp) : (s.onComp i f).transfer = s.transfer := rfl
@[simp] theorem State.onComp_excise (s : State) (i : Fin 6) (f : Comp → Comp) : (s.onComp i f).excise = s.excise := rfl
@[simp] theorem State.onComp_filter (s : State) (i : Fin 6) (f : Comp → Comp) : (s.onComp i f).filter = s.filter := rfl
@[simp] theorem State.onComp_mgmt (s : State) (i : Fin 6) (f : Comp → Comp) : (s.onComp i f).mgmt = s.mgmt := rfl
@[simp] theorem State.onComp_work (s : State) (i : Fin 6) (f : Comp → Comp) : (s.onComp i f).work = s.work := rfl
@[simp] theorem State.onComp_draws (s : State) (i : Fin 6) (f : Comp → Comp) : (s.onComp i f).draws = s.draws := rfl
@[simp] theorem State.onComp_pending (s : State) (i : Fin 6) (f : Comp → Comp) : (s.onComp i f).pending = s.pending := rfl
@[simp] theorem State.onComp_vessel (s : State) (i : Fin 6) (f : Comp → Comp) (j : Fin 12) : (s.onComp i f).vessel j = s.vessel j := rfl
@[simp] theorem State.onComp_steep (s : State) (i : Fin 6) (f : Comp → Comp) (j : Fin 4) : (s.onComp i f).steep j = s.steep j := rfl
@[simp] theorem State.onComp_comp_same (s : State) (i : Fin 6) (f : Comp → Comp) : (s.onComp i f).comp i = f (s.comp i) := by simp [State.comp]
theorem State.onComp_comp_ne (s : State) {i j : Fin 6} (h : j ≠ i) (f : Comp → Comp) : (s.onComp i f).comp j = s.comp j := by
  simp [State.comp, bank_onBank_ne _ h]
theorem State.onComp_comp (s : State) (i j : Fin 6) (f : Comp → Comp) : (s.onComp i f).comp j = if j = i then f (s.comp j) else s.comp j := by
  simp [State.comp, bank_onBank]
@[simp] theorem State.onComp_turner (s : State) (i : Fin 6) (f : Comp → Comp) (j : Fin 2) : (s.onComp i f).turner j = s.turner j := rfl
@[simp] theorem State.onComp_kiln (s : State) (i : Fin 6) (f : Comp → Comp) (j : Fin 2) : (s.onComp i f).kiln j = s.kiln j := rfl
@[simp] theorem State.onComp_timeNow (s : State) (i : Fin 6) (f : Comp → Comp) : (s.onComp i f).timeNow = s.timeNow := rfl
@[simp] theorem State.onComp_ownAddr (s : State) (i : Fin 6) (f : Comp → Comp) : (s.onComp i f).ownAddr = s.ownAddr := rfl
@[simp] theorem State.onComp_plantAddr (s : State) (i : Fin 6) (f : Comp → Comp) : (s.onComp i f).plantAddr = s.plantAddr := rfl
@[simp] theorem State.onComp_silenceTenths (s : State) (i : Fin 6) (f : Comp → Comp) : (s.onComp i f).silenceTenths = s.silenceTenths := rfl
@[simp] theorem State.onComp_budget (s : State) (i : Fin 6) (f : Comp → Comp) : (s.onComp i f).budget = s.budget := rfl
@[simp] theorem State.onComp_terminalAddr (s : State) (i : Fin 6) (f : Comp → Comp) : (s.onComp i f).terminalAddr = s.terminalAddr := rfl

/-! ## onTurner -/

@[simp] theorem State.onTurner_clock (s : State) (i : Fin 2) (f : Turner → Turner) : (s.onTurner i f).clock = s.clock := rfl
@[simp] theorem State.onTurner_trunk (s : State) (i : Fin 2) (f : Turner → Turner) : (s.onTurner i f).trunk = s.trunk := rfl
@[simp] theorem State.onTurner_notices (s : State) (i : Fin 2) (f : Turner → Turner) : (s.onTurner i f).notices = s.notices := rfl
@[simp] theorem State.onTurner_field (s : State) (i : Fin 2) (f : Turner → Turner) : (s.onTurner i f).field = s.field := rfl
@[simp] theorem State.onTurner_intake (s : State) (i : Fin 2) (f : Turner → Turner) : (s.onTurner i f).intake = s.intake := rfl
@[simp] theorem State.onTurner_staged (s : State) (i : Fin 2) (f : Turner → Turner) : (s.onTurner i f).staged = s.staged := rfl
@[simp] theorem State.onTurner_tables (s : State) (i : Fin 2) (f : Turner → Turner) : (s.onTurner i f).tables = s.tables := rfl
@[simp] theorem State.onTurner_vessels (s : State) (i : Fin 2) (f : Turner → Turner) : (s.onTurner i f).vessels = s.vessels := rfl
@[simp] theorem State.onTurner_steeps (s : State) (i : Fin 2) (f : Turner → Turner) : (s.onTurner i f).steeps = s.steeps := rfl
@[simp] theorem State.onTurner_comps (s : State) (i : Fin 2) (f : Turner → Turner) : (s.onTurner i f).comps = s.comps := rfl
@[simp] theorem State.onTurner_turners (s : State) (i : Fin 2) (f : Turner → Turner) : (s.onTurner i f).turners = onBank s.turners i f := rfl
@[simp] theorem State.onTurner_kilns (s : State) (i : Fin 2) (f : Turner → Turner) : (s.onTurner i f).kilns = s.kilns := rfl
@[simp] theorem State.onTurner_batch (s : State) (i : Fin 2) (f : Turner → Turner) : (s.onTurner i f).batch = s.batch := rfl
@[simp] theorem State.onTurner_transfer (s : State) (i : Fin 2) (f : Turner → Turner) : (s.onTurner i f).transfer = s.transfer := rfl
@[simp] theorem State.onTurner_excise (s : State) (i : Fin 2) (f : Turner → Turner) : (s.onTurner i f).excise = s.excise := rfl
@[simp] theorem State.onTurner_filter (s : State) (i : Fin 2) (f : Turner → Turner) : (s.onTurner i f).filter = s.filter := rfl
@[simp] theorem State.onTurner_mgmt (s : State) (i : Fin 2) (f : Turner → Turner) : (s.onTurner i f).mgmt = s.mgmt := rfl
@[simp] theorem State.onTurner_work (s : State) (i : Fin 2) (f : Turner → Turner) : (s.onTurner i f).work = s.work := rfl
@[simp] theorem State.onTurner_draws (s : State) (i : Fin 2) (f : Turner → Turner) : (s.onTurner i f).draws = s.draws := rfl
@[simp] theorem State.onTurner_pending (s : State) (i : Fin 2) (f : Turner → Turner) : (s.onTurner i f).pending = s.pending := rfl
@[simp] theorem State.onTurner_vessel (s : State) (i : Fin 2) (f : Turner → Turner) (j : Fin 12) : (s.onTurner i f).vessel j = s.vessel j := rfl
@[simp] theorem State.onTurner_steep (s : State) (i : Fin 2) (f : Turner → Turner) (j : Fin 4) : (s.onTurner i f).steep j = s.steep j := rfl
@[simp] theorem State.onTurner_comp (s : State) (i : Fin 2) (f : Turner → Turner) (j : Fin 6) : (s.onTurner i f).comp j = s.comp j := rfl
@[simp] theorem State.onTurner_turner_same (s : State) (i : Fin 2) (f : Turner → Turner) : (s.onTurner i f).turner i = f (s.turner i) := by simp [State.turner]
theorem State.onTurner_turner_ne (s : State) {i j : Fin 2} (h : j ≠ i) (f : Turner → Turner) : (s.onTurner i f).turner j = s.turner j := by
  simp [State.turner, bank_onBank_ne _ h]
theorem State.onTurner_turner (s : State) (i j : Fin 2) (f : Turner → Turner) : (s.onTurner i f).turner j = if j = i then f (s.turner j) else s.turner j := by
  simp [State.turner, bank_onBank]
@[simp] theorem State.onTurner_kiln (s : State) (i : Fin 2) (f : Turner → Turner) (j : Fin 2) : (s.onTurner i f).kiln j = s.kiln j := rfl
@[simp] theorem State.onTurner_timeNow (s : State) (i : Fin 2) (f : Turner → Turner) : (s.onTurner i f).timeNow = s.timeNow := rfl
@[simp] theorem State.onTurner_ownAddr (s : State) (i : Fin 2) (f : Turner → Turner) : (s.onTurner i f).ownAddr = s.ownAddr := rfl
@[simp] theorem State.onTurner_plantAddr (s : State) (i : Fin 2) (f : Turner → Turner) : (s.onTurner i f).plantAddr = s.plantAddr := rfl
@[simp] theorem State.onTurner_silenceTenths (s : State) (i : Fin 2) (f : Turner → Turner) : (s.onTurner i f).silenceTenths = s.silenceTenths := rfl
@[simp] theorem State.onTurner_budget (s : State) (i : Fin 2) (f : Turner → Turner) : (s.onTurner i f).budget = s.budget := rfl
@[simp] theorem State.onTurner_terminalAddr (s : State) (i : Fin 2) (f : Turner → Turner) : (s.onTurner i f).terminalAddr = s.terminalAddr := rfl

/-! ## onKiln -/

@[simp] theorem State.onKiln_clock (s : State) (i : Fin 2) (f : Kiln → Kiln) : (s.onKiln i f).clock = s.clock := rfl
@[simp] theorem State.onKiln_trunk (s : State) (i : Fin 2) (f : Kiln → Kiln) : (s.onKiln i f).trunk = s.trunk := rfl
@[simp] theorem State.onKiln_notices (s : State) (i : Fin 2) (f : Kiln → Kiln) : (s.onKiln i f).notices = s.notices := rfl
@[simp] theorem State.onKiln_field (s : State) (i : Fin 2) (f : Kiln → Kiln) : (s.onKiln i f).field = s.field := rfl
@[simp] theorem State.onKiln_intake (s : State) (i : Fin 2) (f : Kiln → Kiln) : (s.onKiln i f).intake = s.intake := rfl
@[simp] theorem State.onKiln_staged (s : State) (i : Fin 2) (f : Kiln → Kiln) : (s.onKiln i f).staged = s.staged := rfl
@[simp] theorem State.onKiln_tables (s : State) (i : Fin 2) (f : Kiln → Kiln) : (s.onKiln i f).tables = s.tables := rfl
@[simp] theorem State.onKiln_vessels (s : State) (i : Fin 2) (f : Kiln → Kiln) : (s.onKiln i f).vessels = s.vessels := rfl
@[simp] theorem State.onKiln_steeps (s : State) (i : Fin 2) (f : Kiln → Kiln) : (s.onKiln i f).steeps = s.steeps := rfl
@[simp] theorem State.onKiln_comps (s : State) (i : Fin 2) (f : Kiln → Kiln) : (s.onKiln i f).comps = s.comps := rfl
@[simp] theorem State.onKiln_turners (s : State) (i : Fin 2) (f : Kiln → Kiln) : (s.onKiln i f).turners = s.turners := rfl
@[simp] theorem State.onKiln_kilns (s : State) (i : Fin 2) (f : Kiln → Kiln) : (s.onKiln i f).kilns = onBank s.kilns i f := rfl
@[simp] theorem State.onKiln_batch (s : State) (i : Fin 2) (f : Kiln → Kiln) : (s.onKiln i f).batch = s.batch := rfl
@[simp] theorem State.onKiln_transfer (s : State) (i : Fin 2) (f : Kiln → Kiln) : (s.onKiln i f).transfer = s.transfer := rfl
@[simp] theorem State.onKiln_excise (s : State) (i : Fin 2) (f : Kiln → Kiln) : (s.onKiln i f).excise = s.excise := rfl
@[simp] theorem State.onKiln_filter (s : State) (i : Fin 2) (f : Kiln → Kiln) : (s.onKiln i f).filter = s.filter := rfl
@[simp] theorem State.onKiln_mgmt (s : State) (i : Fin 2) (f : Kiln → Kiln) : (s.onKiln i f).mgmt = s.mgmt := rfl
@[simp] theorem State.onKiln_work (s : State) (i : Fin 2) (f : Kiln → Kiln) : (s.onKiln i f).work = s.work := rfl
@[simp] theorem State.onKiln_draws (s : State) (i : Fin 2) (f : Kiln → Kiln) : (s.onKiln i f).draws = s.draws := rfl
@[simp] theorem State.onKiln_pending (s : State) (i : Fin 2) (f : Kiln → Kiln) : (s.onKiln i f).pending = s.pending := rfl
@[simp] theorem State.onKiln_vessel (s : State) (i : Fin 2) (f : Kiln → Kiln) (j : Fin 12) : (s.onKiln i f).vessel j = s.vessel j := rfl
@[simp] theorem State.onKiln_steep (s : State) (i : Fin 2) (f : Kiln → Kiln) (j : Fin 4) : (s.onKiln i f).steep j = s.steep j := rfl
@[simp] theorem State.onKiln_comp (s : State) (i : Fin 2) (f : Kiln → Kiln) (j : Fin 6) : (s.onKiln i f).comp j = s.comp j := rfl
@[simp] theorem State.onKiln_turner (s : State) (i : Fin 2) (f : Kiln → Kiln) (j : Fin 2) : (s.onKiln i f).turner j = s.turner j := rfl
@[simp] theorem State.onKiln_kiln_same (s : State) (i : Fin 2) (f : Kiln → Kiln) : (s.onKiln i f).kiln i = f (s.kiln i) := by simp [State.kiln]
theorem State.onKiln_kiln_ne (s : State) {i j : Fin 2} (h : j ≠ i) (f : Kiln → Kiln) : (s.onKiln i f).kiln j = s.kiln j := by
  simp [State.kiln, bank_onBank_ne _ h]
theorem State.onKiln_kiln (s : State) (i j : Fin 2) (f : Kiln → Kiln) : (s.onKiln i f).kiln j = if j = i then f (s.kiln j) else s.kiln j := by
  simp [State.kiln, bank_onBank]
@[simp] theorem State.onKiln_timeNow (s : State) (i : Fin 2) (f : Kiln → Kiln) : (s.onKiln i f).timeNow = s.timeNow := rfl
@[simp] theorem State.onKiln_ownAddr (s : State) (i : Fin 2) (f : Kiln → Kiln) : (s.onKiln i f).ownAddr = s.ownAddr := rfl
@[simp] theorem State.onKiln_plantAddr (s : State) (i : Fin 2) (f : Kiln → Kiln) : (s.onKiln i f).plantAddr = s.plantAddr := rfl
@[simp] theorem State.onKiln_silenceTenths (s : State) (i : Fin 2) (f : Kiln → Kiln) : (s.onKiln i f).silenceTenths = s.silenceTenths := rfl
@[simp] theorem State.onKiln_budget (s : State) (i : Fin 2) (f : Kiln → Kiln) : (s.onKiln i f).budget = s.budget := rfl
@[simp] theorem State.onKiln_terminalAddr (s : State) (i : Fin 2) (f : Kiln → Kiln) : (s.onKiln i f).terminalAddr = s.terminalAddr := rfl

/-! ## onBatch -/

@[simp] theorem State.onBatch_clock (s : State) (f : BatchUnit → BatchUnit) : (s.onBatch f).clock = s.clock := rfl
@[simp] theorem State.onBatch_trunk (s : State) (f : BatchUnit → BatchUnit) : (s.onBatch f).trunk = s.trunk := rfl
@[simp] theorem State.onBatch_notices (s : State) (f : BatchUnit → BatchUnit) : (s.onBatch f).notices = s.notices := rfl
@[simp] theorem State.onBatch_field (s : State) (f : BatchUnit → BatchUnit) : (s.onBatch f).field = s.field := rfl
@[simp] theorem State.onBatch_intake (s : State) (f : BatchUnit → BatchUnit) : (s.onBatch f).intake = s.intake := rfl
@[simp] theorem State.onBatch_staged (s : State) (f : BatchUnit → BatchUnit) : (s.onBatch f).staged = s.staged := rfl
@[simp] theorem State.onBatch_tables (s : State) (f : BatchUnit → BatchUnit) : (s.onBatch f).tables = s.tables := rfl
@[simp] theorem State.onBatch_vessels (s : State) (f : BatchUnit → BatchUnit) : (s.onBatch f).vessels = s.vessels := rfl
@[simp] theorem State.onBatch_steeps (s : State) (f : BatchUnit → BatchUnit) : (s.onBatch f).steeps = s.steeps := rfl
@[simp] theorem State.onBatch_comps (s : State) (f : BatchUnit → BatchUnit) : (s.onBatch f).comps = s.comps := rfl
@[simp] theorem State.onBatch_turners (s : State) (f : BatchUnit → BatchUnit) : (s.onBatch f).turners = s.turners := rfl
@[simp] theorem State.onBatch_kilns (s : State) (f : BatchUnit → BatchUnit) : (s.onBatch f).kilns = s.kilns := rfl
@[simp] theorem State.onBatch_batch (s : State) (f : BatchUnit → BatchUnit) : (s.onBatch f).batch = f s.batch := rfl
@[simp] theorem State.onBatch_transfer (s : State) (f : BatchUnit → BatchUnit) : (s.onBatch f).transfer = s.transfer := rfl
@[simp] theorem State.onBatch_excise (s : State) (f : BatchUnit → BatchUnit) : (s.onBatch f).excise = s.excise := rfl
@[simp] theorem State.onBatch_filter (s : State) (f : BatchUnit → BatchUnit) : (s.onBatch f).filter = s.filter := rfl
@[simp] theorem State.onBatch_mgmt (s : State) (f : BatchUnit → BatchUnit) : (s.onBatch f).mgmt = s.mgmt := rfl
@[simp] theorem State.onBatch_work (s : State) (f : BatchUnit → BatchUnit) : (s.onBatch f).work = s.work := rfl
@[simp] theorem State.onBatch_draws (s : State) (f : BatchUnit → BatchUnit) : (s.onBatch f).draws = s.draws := rfl
@[simp] theorem State.onBatch_pending (s : State) (f : BatchUnit → BatchUnit) : (s.onBatch f).pending = s.pending := rfl
@[simp] theorem State.onBatch_vessel (s : State) (f : BatchUnit → BatchUnit) (j : Fin 12) : (s.onBatch f).vessel j = s.vessel j := rfl
@[simp] theorem State.onBatch_steep (s : State) (f : BatchUnit → BatchUnit) (j : Fin 4) : (s.onBatch f).steep j = s.steep j := rfl
@[simp] theorem State.onBatch_comp (s : State) (f : BatchUnit → BatchUnit) (j : Fin 6) : (s.onBatch f).comp j = s.comp j := rfl
@[simp] theorem State.onBatch_turner (s : State) (f : BatchUnit → BatchUnit) (j : Fin 2) : (s.onBatch f).turner j = s.turner j := rfl
@[simp] theorem State.onBatch_kiln (s : State) (f : BatchUnit → BatchUnit) (j : Fin 2) : (s.onBatch f).kiln j = s.kiln j := rfl
@[simp] theorem State.onBatch_timeNow (s : State) (f : BatchUnit → BatchUnit) : (s.onBatch f).timeNow = s.timeNow := rfl
@[simp] theorem State.onBatch_ownAddr (s : State) (f : BatchUnit → BatchUnit) : (s.onBatch f).ownAddr = s.ownAddr := rfl
@[simp] theorem State.onBatch_plantAddr (s : State) (f : BatchUnit → BatchUnit) : (s.onBatch f).plantAddr = s.plantAddr := rfl
@[simp] theorem State.onBatch_silenceTenths (s : State) (f : BatchUnit → BatchUnit) : (s.onBatch f).silenceTenths = s.silenceTenths := rfl
@[simp] theorem State.onBatch_budget (s : State) (f : BatchUnit → BatchUnit) : (s.onBatch f).budget = s.budget := rfl
@[simp] theorem State.onBatch_terminalAddr (s : State) (f : BatchUnit → BatchUnit) : (s.onBatch f).terminalAddr = s.terminalAddr := rfl

/-! ## onTransfer -/

@[simp] theorem State.onTransfer_clock (s : State) (f : TransferRun → TransferRun) : (s.onTransfer f).clock = s.clock := rfl
@[simp] theorem State.onTransfer_trunk (s : State) (f : TransferRun → TransferRun) : (s.onTransfer f).trunk = s.trunk := rfl
@[simp] theorem State.onTransfer_notices (s : State) (f : TransferRun → TransferRun) : (s.onTransfer f).notices = s.notices := rfl
@[simp] theorem State.onTransfer_field (s : State) (f : TransferRun → TransferRun) : (s.onTransfer f).field = s.field := rfl
@[simp] theorem State.onTransfer_intake (s : State) (f : TransferRun → TransferRun) : (s.onTransfer f).intake = s.intake := rfl
@[simp] theorem State.onTransfer_staged (s : State) (f : TransferRun → TransferRun) : (s.onTransfer f).staged = s.staged := rfl
@[simp] theorem State.onTransfer_tables (s : State) (f : TransferRun → TransferRun) : (s.onTransfer f).tables = s.tables := rfl
@[simp] theorem State.onTransfer_vessels (s : State) (f : TransferRun → TransferRun) : (s.onTransfer f).vessels = s.vessels := rfl
@[simp] theorem State.onTransfer_steeps (s : State) (f : TransferRun → TransferRun) : (s.onTransfer f).steeps = s.steeps := rfl
@[simp] theorem State.onTransfer_comps (s : State) (f : TransferRun → TransferRun) : (s.onTransfer f).comps = s.comps := rfl
@[simp] theorem State.onTransfer_turners (s : State) (f : TransferRun → TransferRun) : (s.onTransfer f).turners = s.turners := rfl
@[simp] theorem State.onTransfer_kilns (s : State) (f : TransferRun → TransferRun) : (s.onTransfer f).kilns = s.kilns := rfl
@[simp] theorem State.onTransfer_batch (s : State) (f : TransferRun → TransferRun) : (s.onTransfer f).batch = s.batch := rfl
@[simp] theorem State.onTransfer_transfer (s : State) (f : TransferRun → TransferRun) : (s.onTransfer f).transfer = f s.transfer := rfl
@[simp] theorem State.onTransfer_excise (s : State) (f : TransferRun → TransferRun) : (s.onTransfer f).excise = s.excise := rfl
@[simp] theorem State.onTransfer_filter (s : State) (f : TransferRun → TransferRun) : (s.onTransfer f).filter = s.filter := rfl
@[simp] theorem State.onTransfer_mgmt (s : State) (f : TransferRun → TransferRun) : (s.onTransfer f).mgmt = s.mgmt := rfl
@[simp] theorem State.onTransfer_work (s : State) (f : TransferRun → TransferRun) : (s.onTransfer f).work = s.work := rfl
@[simp] theorem State.onTransfer_draws (s : State) (f : TransferRun → TransferRun) : (s.onTransfer f).draws = s.draws := rfl
@[simp] theorem State.onTransfer_pending (s : State) (f : TransferRun → TransferRun) : (s.onTransfer f).pending = s.pending := rfl
@[simp] theorem State.onTransfer_vessel (s : State) (f : TransferRun → TransferRun) (j : Fin 12) : (s.onTransfer f).vessel j = s.vessel j := rfl
@[simp] theorem State.onTransfer_steep (s : State) (f : TransferRun → TransferRun) (j : Fin 4) : (s.onTransfer f).steep j = s.steep j := rfl
@[simp] theorem State.onTransfer_comp (s : State) (f : TransferRun → TransferRun) (j : Fin 6) : (s.onTransfer f).comp j = s.comp j := rfl
@[simp] theorem State.onTransfer_turner (s : State) (f : TransferRun → TransferRun) (j : Fin 2) : (s.onTransfer f).turner j = s.turner j := rfl
@[simp] theorem State.onTransfer_kiln (s : State) (f : TransferRun → TransferRun) (j : Fin 2) : (s.onTransfer f).kiln j = s.kiln j := rfl
@[simp] theorem State.onTransfer_timeNow (s : State) (f : TransferRun → TransferRun) : (s.onTransfer f).timeNow = s.timeNow := rfl
@[simp] theorem State.onTransfer_ownAddr (s : State) (f : TransferRun → TransferRun) : (s.onTransfer f).ownAddr = s.ownAddr := rfl
@[simp] theorem State.onTransfer_plantAddr (s : State) (f : TransferRun → TransferRun) : (s.onTransfer f).plantAddr = s.plantAddr := rfl
@[simp] theorem State.onTransfer_silenceTenths (s : State) (f : TransferRun → TransferRun) : (s.onTransfer f).silenceTenths = s.silenceTenths := rfl
@[simp] theorem State.onTransfer_budget (s : State) (f : TransferRun → TransferRun) : (s.onTransfer f).budget = s.budget := rfl
@[simp] theorem State.onTransfer_terminalAddr (s : State) (f : TransferRun → TransferRun) : (s.onTransfer f).terminalAddr = s.terminalAddr := rfl

/-! ## onExcise -/

@[simp] theorem State.onExcise_clock (s : State) (f : Excise → Excise) : (s.onExcise f).clock = s.clock := rfl
@[simp] theorem State.onExcise_trunk (s : State) (f : Excise → Excise) : (s.onExcise f).trunk = s.trunk := rfl
@[simp] theorem State.onExcise_notices (s : State) (f : Excise → Excise) : (s.onExcise f).notices = s.notices := rfl
@[simp] theorem State.onExcise_field (s : State) (f : Excise → Excise) : (s.onExcise f).field = s.field := rfl
@[simp] theorem State.onExcise_intake (s : State) (f : Excise → Excise) : (s.onExcise f).intake = s.intake := rfl
@[simp] theorem State.onExcise_staged (s : State) (f : Excise → Excise) : (s.onExcise f).staged = s.staged := rfl
@[simp] theorem State.onExcise_tables (s : State) (f : Excise → Excise) : (s.onExcise f).tables = s.tables := rfl
@[simp] theorem State.onExcise_vessels (s : State) (f : Excise → Excise) : (s.onExcise f).vessels = s.vessels := rfl
@[simp] theorem State.onExcise_steeps (s : State) (f : Excise → Excise) : (s.onExcise f).steeps = s.steeps := rfl
@[simp] theorem State.onExcise_comps (s : State) (f : Excise → Excise) : (s.onExcise f).comps = s.comps := rfl
@[simp] theorem State.onExcise_turners (s : State) (f : Excise → Excise) : (s.onExcise f).turners = s.turners := rfl
@[simp] theorem State.onExcise_kilns (s : State) (f : Excise → Excise) : (s.onExcise f).kilns = s.kilns := rfl
@[simp] theorem State.onExcise_batch (s : State) (f : Excise → Excise) : (s.onExcise f).batch = s.batch := rfl
@[simp] theorem State.onExcise_transfer (s : State) (f : Excise → Excise) : (s.onExcise f).transfer = s.transfer := rfl
@[simp] theorem State.onExcise_excise (s : State) (f : Excise → Excise) : (s.onExcise f).excise = f s.excise := rfl
@[simp] theorem State.onExcise_filter (s : State) (f : Excise → Excise) : (s.onExcise f).filter = s.filter := rfl
@[simp] theorem State.onExcise_mgmt (s : State) (f : Excise → Excise) : (s.onExcise f).mgmt = s.mgmt := rfl
@[simp] theorem State.onExcise_work (s : State) (f : Excise → Excise) : (s.onExcise f).work = s.work := rfl
@[simp] theorem State.onExcise_draws (s : State) (f : Excise → Excise) : (s.onExcise f).draws = s.draws := rfl
@[simp] theorem State.onExcise_pending (s : State) (f : Excise → Excise) : (s.onExcise f).pending = s.pending := rfl
@[simp] theorem State.onExcise_vessel (s : State) (f : Excise → Excise) (j : Fin 12) : (s.onExcise f).vessel j = s.vessel j := rfl
@[simp] theorem State.onExcise_steep (s : State) (f : Excise → Excise) (j : Fin 4) : (s.onExcise f).steep j = s.steep j := rfl
@[simp] theorem State.onExcise_comp (s : State) (f : Excise → Excise) (j : Fin 6) : (s.onExcise f).comp j = s.comp j := rfl
@[simp] theorem State.onExcise_turner (s : State) (f : Excise → Excise) (j : Fin 2) : (s.onExcise f).turner j = s.turner j := rfl
@[simp] theorem State.onExcise_kiln (s : State) (f : Excise → Excise) (j : Fin 2) : (s.onExcise f).kiln j = s.kiln j := rfl
@[simp] theorem State.onExcise_timeNow (s : State) (f : Excise → Excise) : (s.onExcise f).timeNow = s.timeNow := rfl
@[simp] theorem State.onExcise_ownAddr (s : State) (f : Excise → Excise) : (s.onExcise f).ownAddr = s.ownAddr := rfl
@[simp] theorem State.onExcise_plantAddr (s : State) (f : Excise → Excise) : (s.onExcise f).plantAddr = s.plantAddr := rfl
@[simp] theorem State.onExcise_silenceTenths (s : State) (f : Excise → Excise) : (s.onExcise f).silenceTenths = s.silenceTenths := rfl
@[simp] theorem State.onExcise_budget (s : State) (f : Excise → Excise) : (s.onExcise f).budget = s.budget := rfl

/-! ## onFilter -/

@[simp] theorem State.onFilter_clock (s : State) (f : Filter → Filter) : (s.onFilter f).clock = s.clock := rfl
@[simp] theorem State.onFilter_trunk (s : State) (f : Filter → Filter) : (s.onFilter f).trunk = s.trunk := rfl
@[simp] theorem State.onFilter_notices (s : State) (f : Filter → Filter) : (s.onFilter f).notices = s.notices := rfl
@[simp] theorem State.onFilter_field (s : State) (f : Filter → Filter) : (s.onFilter f).field = s.field := rfl
@[simp] theorem State.onFilter_intake (s : State) (f : Filter → Filter) : (s.onFilter f).intake = s.intake := rfl
@[simp] theorem State.onFilter_staged (s : State) (f : Filter → Filter) : (s.onFilter f).staged = s.staged := rfl
@[simp] theorem State.onFilter_tables (s : State) (f : Filter → Filter) : (s.onFilter f).tables = s.tables := rfl
@[simp] theorem State.onFilter_vessels (s : State) (f : Filter → Filter) : (s.onFilter f).vessels = s.vessels := rfl
@[simp] theorem State.onFilter_steeps (s : State) (f : Filter → Filter) : (s.onFilter f).steeps = s.steeps := rfl
@[simp] theorem State.onFilter_comps (s : State) (f : Filter → Filter) : (s.onFilter f).comps = s.comps := rfl
@[simp] theorem State.onFilter_turners (s : State) (f : Filter → Filter) : (s.onFilter f).turners = s.turners := rfl
@[simp] theorem State.onFilter_kilns (s : State) (f : Filter → Filter) : (s.onFilter f).kilns = s.kilns := rfl
@[simp] theorem State.onFilter_batch (s : State) (f : Filter → Filter) : (s.onFilter f).batch = s.batch := rfl
@[simp] theorem State.onFilter_transfer (s : State) (f : Filter → Filter) : (s.onFilter f).transfer = s.transfer := rfl
@[simp] theorem State.onFilter_excise (s : State) (f : Filter → Filter) : (s.onFilter f).excise = s.excise := rfl
@[simp] theorem State.onFilter_filter (s : State) (f : Filter → Filter) : (s.onFilter f).filter = f s.filter := rfl
@[simp] theorem State.onFilter_mgmt (s : State) (f : Filter → Filter) : (s.onFilter f).mgmt = s.mgmt := rfl
@[simp] theorem State.onFilter_work (s : State) (f : Filter → Filter) : (s.onFilter f).work = s.work := rfl
@[simp] theorem State.onFilter_draws (s : State) (f : Filter → Filter) : (s.onFilter f).draws = s.draws := rfl
@[simp] theorem State.onFilter_pending (s : State) (f : Filter → Filter) : (s.onFilter f).pending = s.pending := rfl
@[simp] theorem State.onFilter_vessel (s : State) (f : Filter → Filter) (j : Fin 12) : (s.onFilter f).vessel j = s.vessel j := rfl
@[simp] theorem State.onFilter_steep (s : State) (f : Filter → Filter) (j : Fin 4) : (s.onFilter f).steep j = s.steep j := rfl
@[simp] theorem State.onFilter_comp (s : State) (f : Filter → Filter) (j : Fin 6) : (s.onFilter f).comp j = s.comp j := rfl
@[simp] theorem State.onFilter_turner (s : State) (f : Filter → Filter) (j : Fin 2) : (s.onFilter f).turner j = s.turner j := rfl
@[simp] theorem State.onFilter_kiln (s : State) (f : Filter → Filter) (j : Fin 2) : (s.onFilter f).kiln j = s.kiln j := rfl
@[simp] theorem State.onFilter_timeNow (s : State) (f : Filter → Filter) : (s.onFilter f).timeNow = s.timeNow := rfl
@[simp] theorem State.onFilter_ownAddr (s : State) (f : Filter → Filter) : (s.onFilter f).ownAddr = s.ownAddr := rfl
@[simp] theorem State.onFilter_plantAddr (s : State) (f : Filter → Filter) : (s.onFilter f).plantAddr = s.plantAddr := rfl
@[simp] theorem State.onFilter_silenceTenths (s : State) (f : Filter → Filter) : (s.onFilter f).silenceTenths = s.silenceTenths := rfl
@[simp] theorem State.onFilter_budget (s : State) (f : Filter → Filter) : (s.onFilter f).budget = s.budget := rfl
@[simp] theorem State.onFilter_terminalAddr (s : State) (f : Filter → Filter) : (s.onFilter f).terminalAddr = s.terminalAddr := rfl

/-! ## onMgmt -/

@[simp] theorem State.onMgmt_clock (s : State) (f : Mgmt → Mgmt) : (s.onMgmt f).clock = s.clock := rfl
@[simp] theorem State.onMgmt_trunk (s : State) (f : Mgmt → Mgmt) : (s.onMgmt f).trunk = s.trunk := rfl
@[simp] theorem State.onMgmt_notices (s : State) (f : Mgmt → Mgmt) : (s.onMgmt f).notices = s.notices := rfl
@[simp] theorem State.onMgmt_field (s : State) (f : Mgmt → Mgmt) : (s.onMgmt f).field = s.field := rfl
@[simp] theorem State.onMgmt_intake (s : State) (f : Mgmt → Mgmt) : (s.onMgmt f).intake = s.intake := rfl
@[simp] theorem State.onMgmt_staged (s : State) (f : Mgmt → Mgmt) : (s.onMgmt f).staged = s.staged := rfl
@[simp] theorem State.onMgmt_tables (s : State) (f : Mgmt → Mgmt) : (s.onMgmt f).tables = s.tables := rfl
@[simp] theorem State.onMgmt_vessels (s : State) (f : Mgmt → Mgmt) : (s.onMgmt f).vessels = s.vessels := rfl
@[simp] theorem State.onMgmt_steeps (s : State) (f : Mgmt → Mgmt) : (s.onMgmt f).steeps = s.steeps := rfl
@[simp] theorem State.onMgmt_comps (s : State) (f : Mgmt → Mgmt) : (s.onMgmt f).comps = s.comps := rfl
@[simp] theorem State.onMgmt_turners (s : State) (f : Mgmt → Mgmt) : (s.onMgmt f).turners = s.turners := rfl
@[simp] theorem State.onMgmt_kilns (s : State) (f : Mgmt → Mgmt) : (s.onMgmt f).kilns = s.kilns := rfl
@[simp] theorem State.onMgmt_batch (s : State) (f : Mgmt → Mgmt) : (s.onMgmt f).batch = s.batch := rfl
@[simp] theorem State.onMgmt_transfer (s : State) (f : Mgmt → Mgmt) : (s.onMgmt f).transfer = s.transfer := rfl
@[simp] theorem State.onMgmt_excise (s : State) (f : Mgmt → Mgmt) : (s.onMgmt f).excise = s.excise := rfl
@[simp] theorem State.onMgmt_filter (s : State) (f : Mgmt → Mgmt) : (s.onMgmt f).filter = s.filter := rfl
@[simp] theorem State.onMgmt_mgmt (s : State) (f : Mgmt → Mgmt) : (s.onMgmt f).mgmt = f s.mgmt := rfl
@[simp] theorem State.onMgmt_work (s : State) (f : Mgmt → Mgmt) : (s.onMgmt f).work = s.work := rfl
@[simp] theorem State.onMgmt_draws (s : State) (f : Mgmt → Mgmt) : (s.onMgmt f).draws = s.draws := rfl
@[simp] theorem State.onMgmt_pending (s : State) (f : Mgmt → Mgmt) : (s.onMgmt f).pending = s.pending := rfl
@[simp] theorem State.onMgmt_vessel (s : State) (f : Mgmt → Mgmt) (j : Fin 12) : (s.onMgmt f).vessel j = s.vessel j := rfl
@[simp] theorem State.onMgmt_steep (s : State) (f : Mgmt → Mgmt) (j : Fin 4) : (s.onMgmt f).steep j = s.steep j := rfl
@[simp] theorem State.onMgmt_comp (s : State) (f : Mgmt → Mgmt) (j : Fin 6) : (s.onMgmt f).comp j = s.comp j := rfl
@[simp] theorem State.onMgmt_turner (s : State) (f : Mgmt → Mgmt) (j : Fin 2) : (s.onMgmt f).turner j = s.turner j := rfl
@[simp] theorem State.onMgmt_kiln (s : State) (f : Mgmt → Mgmt) (j : Fin 2) : (s.onMgmt f).kiln j = s.kiln j := rfl
@[simp] theorem State.onMgmt_timeNow (s : State) (f : Mgmt → Mgmt) : (s.onMgmt f).timeNow = s.timeNow := rfl
@[simp] theorem State.onMgmt_ownAddr (s : State) (f : Mgmt → Mgmt) : (s.onMgmt f).ownAddr = s.ownAddr := rfl
@[simp] theorem State.onMgmt_plantAddr (s : State) (f : Mgmt → Mgmt) : (s.onMgmt f).plantAddr = s.plantAddr := rfl
@[simp] theorem State.onMgmt_silenceTenths (s : State) (f : Mgmt → Mgmt) : (s.onMgmt f).silenceTenths = s.silenceTenths := rfl
@[simp] theorem State.onMgmt_budget (s : State) (f : Mgmt → Mgmt) : (s.onMgmt f).budget = s.budget := rfl
@[simp] theorem State.onMgmt_terminalAddr (s : State) (f : Mgmt → Mgmt) : (s.onMgmt f).terminalAddr = s.terminalAddr := rfl

/-! ## emit and withPending -/

@[simp] theorem State.emit_clock (s : State) (e : Event) : (s.emit e).clock = s.clock := rfl
@[simp] theorem State.emit_trunk (s : State) (e : Event) : (s.emit e).trunk = s.trunk := rfl
@[simp] theorem State.emit_notices (s : State) (e : Event) : (s.emit e).notices = s.notices := rfl
@[simp] theorem State.emit_field (s : State) (e : Event) : (s.emit e).field = s.field := rfl
@[simp] theorem State.emit_intake (s : State) (e : Event) : (s.emit e).intake = s.intake := rfl
@[simp] theorem State.emit_staged (s : State) (e : Event) : (s.emit e).staged = s.staged := rfl
@[simp] theorem State.emit_tables (s : State) (e : Event) : (s.emit e).tables = s.tables := rfl
@[simp] theorem State.emit_vessels (s : State) (e : Event) : (s.emit e).vessels = s.vessels := rfl
@[simp] theorem State.emit_steeps (s : State) (e : Event) : (s.emit e).steeps = s.steeps := rfl
@[simp] theorem State.emit_comps (s : State) (e : Event) : (s.emit e).comps = s.comps := rfl
@[simp] theorem State.emit_turners (s : State) (e : Event) : (s.emit e).turners = s.turners := rfl
@[simp] theorem State.emit_kilns (s : State) (e : Event) : (s.emit e).kilns = s.kilns := rfl
@[simp] theorem State.emit_batch (s : State) (e : Event) : (s.emit e).batch = s.batch := rfl
@[simp] theorem State.emit_transfer (s : State) (e : Event) : (s.emit e).transfer = s.transfer := rfl
@[simp] theorem State.emit_excise (s : State) (e : Event) : (s.emit e).excise = s.excise := rfl
@[simp] theorem State.emit_filter (s : State) (e : Event) : (s.emit e).filter = s.filter := rfl
@[simp] theorem State.emit_mgmt (s : State) (e : Event) : (s.emit e).mgmt = s.mgmt := rfl
@[simp] theorem State.emit_work (s : State) (e : Event) : (s.emit e).work = s.work ++ [e] := rfl
@[simp] theorem State.emit_draws (s : State) (e : Event) : (s.emit e).draws = s.draws := rfl
@[simp] theorem State.emit_pending (s : State) (e : Event) : (s.emit e).pending = s.pending := rfl
@[simp] theorem State.withPending_clock (s : State) (q : List Instr) : (s.withPending q).clock = s.clock := rfl
@[simp] theorem State.withPending_trunk (s : State) (q : List Instr) : (s.withPending q).trunk = s.trunk := rfl
@[simp] theorem State.withPending_notices (s : State) (q : List Instr) : (s.withPending q).notices = s.notices := rfl
@[simp] theorem State.withPending_field (s : State) (q : List Instr) : (s.withPending q).field = s.field := rfl
@[simp] theorem State.withPending_intake (s : State) (q : List Instr) : (s.withPending q).intake = s.intake := rfl
@[simp] theorem State.withPending_staged (s : State) (q : List Instr) : (s.withPending q).staged = s.staged := rfl
@[simp] theorem State.withPending_tables (s : State) (q : List Instr) : (s.withPending q).tables = s.tables := rfl
@[simp] theorem State.withPending_vessels (s : State) (q : List Instr) : (s.withPending q).vessels = s.vessels := rfl
@[simp] theorem State.withPending_steeps (s : State) (q : List Instr) : (s.withPending q).steeps = s.steeps := rfl
@[simp] theorem State.withPending_comps (s : State) (q : List Instr) : (s.withPending q).comps = s.comps := rfl
@[simp] theorem State.withPending_turners (s : State) (q : List Instr) : (s.withPending q).turners = s.turners := rfl
@[simp] theorem State.withPending_kilns (s : State) (q : List Instr) : (s.withPending q).kilns = s.kilns := rfl
@[simp] theorem State.withPending_batch (s : State) (q : List Instr) : (s.withPending q).batch = s.batch := rfl
@[simp] theorem State.withPending_transfer (s : State) (q : List Instr) : (s.withPending q).transfer = s.transfer := rfl
@[simp] theorem State.withPending_excise (s : State) (q : List Instr) : (s.withPending q).excise = s.excise := rfl
@[simp] theorem State.withPending_filter (s : State) (q : List Instr) : (s.withPending q).filter = s.filter := rfl
@[simp] theorem State.withPending_mgmt (s : State) (q : List Instr) : (s.withPending q).mgmt = s.mgmt := rfl
@[simp] theorem State.withPending_work (s : State) (q : List Instr) : (s.withPending q).work = s.work := rfl
@[simp] theorem State.withPending_draws (s : State) (q : List Instr) : (s.withPending q).draws = s.draws := rfl
@[simp] theorem State.withPending_pending (s : State) (q : List Instr) : (s.withPending q).pending = q := rfl

end Sys2Proof.Machine
end

