-- ==== Sys2Proof/Laws/Tbl.lean ====
section
/-! SUPPORT. Laws/Tbl.lean: the laws of numbered stores: a read after a write, the entries a write leaves alone, and the
canonical form, which every operation keeps. -/

namespace Sys2Proof.Machine

variable {α : Type}

@[simp] theorem Tbl.get_nil (n : Nat) : Tbl.get ([] : Tbl α) n = none := rfl

theorem Tbl.get_cons (k : Nat) (b : α) (t : Tbl α) (n : Nat) :
    Tbl.get ((k, b) :: t) n = if k = n then some b else Tbl.get t n := rfl

/-- A read of the entry just written. -/
@[simp] theorem Tbl.get_put_same (t : Tbl α) (n : Nat) (a : α) : (t.put n a).get n = some a := by
  induction t with
  | nil => simp [Tbl.put, Tbl.get]
  | cons e t ih =>
    obtain ⟨k, b⟩ := e
    simp only [Tbl.put]
    split
    · simp [Tbl.get]
    · split
      · simp [Tbl.get]
      · next h => simp only [Tbl.get]; rw [if_neg (fun e => h e.symm)]; exact ih

/-- A write leaves every other entry alone. -/
theorem Tbl.get_put_ne (t : Tbl α) {n m : Nat} (h : m ≠ n) (a : α) : (t.put n a).get m = t.get m := by
  induction t with
  | nil => simp [Tbl.put, Tbl.get, h.symm]
  | cons e t ih =>
    obtain ⟨k, b⟩ := e
    simp only [Tbl.put]
    split
    · simp [Tbl.get, h.symm]
    · split
      · next h' => subst h'; simp [Tbl.get, h.symm]
      · simp only [Tbl.get, ih]

theorem Tbl.get_put (t : Tbl α) (n m : Nat) (a : α) : (t.put n a).get m = if m = n then some a else t.get m := by
  split
  · next h => subst h; simp
  · next h => exact Tbl.get_put_ne t h a

/-- An entry deleted is empty. -/
@[simp] theorem Tbl.get_del_same (t : Tbl α) (n : Nat) : (t.del n).get n = none := by
  induction t with
  | nil => rfl
  | cons e t ih =>
    obtain ⟨k, b⟩ := e
    simp only [Tbl.del]
    split
    · exact ih
    · next h => simp [Tbl.get, h, ih]

/-- A deletion leaves every other entry alone. -/
theorem Tbl.get_del_ne (t : Tbl α) {n m : Nat} (h : m ≠ n) : (t.del n).get m = t.get m := by
  induction t with
  | nil => rfl
  | cons e t ih =>
    obtain ⟨k, b⟩ := e
    simp only [Tbl.del]
    split
    · next h' => subst h'; simp [Tbl.get, h.symm, ih]
    · simp only [Tbl.get, ih]

theorem Tbl.get_upd_same (t : Tbl α) (n : Nat) (f : α → α) : (t.upd n f).get n = (t.get n).map f := by
  unfold Tbl.upd; cases h : t.get n <;> simp [h]

theorem Tbl.get_upd_ne (t : Tbl α) {n m : Nat} (h : m ≠ n) (f : α → α) : (t.upd n f).get m = t.get m := by
  unfold Tbl.upd; cases h' : t.get n <;> simp [Tbl.get_put_ne _ h]

/-! ## The canonical form -/

theorem Tbl.wf_cons (k : Nat) (b : α) (t : Tbl α) :
    Tbl.wf ((k, b) :: t) = true ↔ (∀ e ∈ t, k < e.1) ∧ t.wf = true := by
  simp [Tbl.wf]

theorem Tbl.mem_put (t : Tbl α) (n : Nat) (a : α) (e : Nat × α) (h : e ∈ t.put n a) : e = (n, a) ∨ e ∈ t := by
  induction t with
  | nil => simpa [Tbl.put] using h
  | cons x t ih =>
    obtain ⟨k, b⟩ := x
    simp only [Tbl.put] at h
    split at h
    · simpa using h
    · split at h
      · next h' => subst h'; rcases List.mem_cons.1 h with h | h <;> simp [h]
      · rcases List.mem_cons.1 h with h | h
        · simp [h]
        · rcases ih h with h | h <;> simp [h]

/-- A write keeps the numbers strictly rising. -/
theorem Tbl.wf_put (t : Tbl α) (n : Nat) (a : α) (h : t.wf = true) : (t.put n a).wf = true := by
  induction t with
  | nil => rfl
  | cons e t ih =>
    obtain ⟨k, b⟩ := e
    obtain ⟨h1, h2⟩ := (Tbl.wf_cons k b t).1 h
    simp only [Tbl.put]
    split
    · next h' =>
      refine (Tbl.wf_cons _ _ _).2 ⟨fun e he => ?_, h⟩
      rcases List.mem_cons.1 he with he | he
      · simpa [he] using h'
      · exact Nat.lt_trans h' (h1 e he)
    · split
      · next h' => subst h'; exact (Tbl.wf_cons _ _ _).2 ⟨h1, h2⟩
      · refine (Tbl.wf_cons _ _ _).2 ⟨fun e he => ?_, ih h2⟩
        rcases Tbl.mem_put t n a e he with he | he
        · rw [he]; show k < n; omega
        · exact h1 e he

theorem Tbl.mem_del (t : Tbl α) (n : Nat) (e : Nat × α) (h : e ∈ t.del n) : e ∈ t := by
  induction t with
  | nil => exact h
  | cons x t ih =>
    obtain ⟨k, b⟩ := x
    simp only [Tbl.del] at h
    split at h
    · simp [ih h]
    · rcases List.mem_cons.1 h with h | h
      · simp [h]
      · simp [ih h]

/-- A deletion keeps the numbers strictly rising. -/
theorem Tbl.wf_del (t : Tbl α) (n : Nat) (h : t.wf = true) : (t.del n).wf = true := by
  induction t with
  | nil => rfl
  | cons e t ih =>
    obtain ⟨k, b⟩ := e
    obtain ⟨h1, h2⟩ := (Tbl.wf_cons k b t).1 h
    simp only [Tbl.del]
    split
    · exact ih h2
    · exact (Tbl.wf_cons _ _ _).2 ⟨fun e he => h1 e (Tbl.mem_del t n e he), ih h2⟩

theorem Tbl.wf_set (t : Tbl α) (n : Nat) (o : Option α) (h : t.wf = true) : (t.set n o).wf = true := by
  cases o with
  | none => exact Tbl.wf_del t n h
  | some a => exact Tbl.wf_put t n a h

theorem Tbl.wf_upd (t : Tbl α) (n : Nat) (f : α → α) (h : t.wf = true) : (t.upd n f).wf = true := by
  unfold Tbl.upd
  split
  · exact Tbl.wf_put t n _ h
  · exact h

end Sys2Proof.Machine
end

