-- ==== Sys2Proof/Laws/Ops.lean ====
section
/-! SUPPORT. Laws/Ops.lean: one lemma for each shared operation, which says what it does where nothing turns it away: events,
notices, replies, requests, offers of the part's own blocks, owners told of a comparator, deliveries, and register entries. -/

namespace Sys2Proof.Machine

/-! ## Events -/

/-- A state with no event under way is settled. -/
theorem State.takeEvents_of_idle {s : State} (h : s.work = []) (n : Nat) : s.takeEvents n = s := by
  cases n <;> simp [State.takeEvents, h]

theorem State.settle_of_idle {s : State} (h : s.work = []) : s.settle = s := State.takeEvents_of_idle h _

theorem State.takeEvents_succ {s : State} {e : Event} {es : List Event} (h : s.work = e :: es) (n : Nat) :
    s.takeEvents (n + 1) = ({ s with work := es }.takeEvent e).takeEvents n := by
  simp [State.takeEvents, h]

/-- One event under way is taken, and what follows it settles. -/
theorem State.settle_of_one {s : State} {e : Event} (h : s.work = [e]) (h' : ({ s with work := [] }.takeEvent e).work = []) :
    s.settle = { s with work := [] }.takeEvent e :=
  (State.takeEvents_succ h 65535).trans (State.takeEvents_of_idle h' _)

/-- A scan with nothing to start changes nothing. -/
theorem State.scan_of_noScan {s : State} (h : s.noScan = true) : s.scan = s := by
  unfold State.scan
  unfold State.noScan at h
  rcases Bool.or_eq_true _ _ ▸ h with h | h
  · simp [h]
  · split
    · rfl
    · simp [List.isEmpty_iff.1 h]

/-- A scan that is under way with nothing to start leaves the state without it. -/
theorem State.settle_of_scan {s : State} (h : s.work = [.scan]) (h' : s.noScan = true) : s.settle = { s with work := [] } := by
  have h2 : ({ s with work := [] }.takeEvent Event.scan) = ({ s with work := [] } : State) :=
    State.scan_of_noScan (s := { s with work := [] }) h'
  rw [State.settle_of_one h (by rw [h2]), h2]

/-- A scan that is prompted and taken with nothing to start leaves the state as it was. -/
theorem State.settle_emit_scan {s : State} (h : s.work = []) (h' : s.noScan = true) : (s.emit .scan).settle = s := by
  have hw : (s.emit .scan).work = [.scan] := congrArg (· ++ [Event.scan]) h
  rw [State.settle_of_scan hw h']
  exact congrArg (fun w => { s with work := w }) h.symm

/-! ## The transmitter and notices -/

/-- What a telegram taken by the transmitter, or a notice or reply made ready for it, leaves alone. -/
structure State.SameBut (s t : State) : Prop where
  clock : t.clock = s.clock
  field : t.field = s.field
  intake : t.intake = s.intake
  staged : t.staged = s.staged
  tables : t.tables = s.tables
  vessels : t.vessels = s.vessels
  steeps : t.steeps = s.steeps
  comps : t.comps = s.comps
  turners : t.turners = s.turners
  kilns : t.kilns = s.kilns
  batch : t.batch = s.batch
  transfer : t.transfer = s.transfer
  excise : t.excise = s.excise
  filter : t.filter = s.filter
  mgmt : t.mgmt = s.mgmt
  work : t.work = s.work
  pending : t.pending = s.pending

theorem State.SameBut.refl (s : State) : State.SameBut s s := by constructor <;> rfl

theorem State.SameBut.trans {s t u : State} (h : State.SameBut s t) (h' : State.SameBut t u) : State.SameBut s u := by
  constructor <;> simp [h.1, h.2, h.3, h.4, h.5, h.6, h.7, h.8, h.9, h.10, h.11, h.12, h.13, h.14, h.15, h.16, h.17,
    h'.1, h'.2, h'.3, h'.4, h'.5, h'.6, h'.7, h'.8, h'.9, h'.10, h'.11, h'.12, h'.13, h'.14, h'.15, h'.16, h'.17]

theorem State.SameBut.onTrunk (s : State) (f : Trunk → Trunk) : State.SameBut s (s.onTrunk f) := by constructor <;> rfl
theorem State.SameBut.onNotices (s : State) (f : Notices → Notices) : State.SameBut s (s.onNotices f) := by
  constructor <;> rfl

theorem State.promoteMark_same (s : State) : State.SameBut s s.promoteMark := by
  unfold State.promoteMark
  split
  · exact State.SameBut.onNotices _ _
  · exact State.SameBut.refl s

theorem State.takeTelegram_same (s : State) : State.SameBut s s.takeTelegram := by
  unfold State.takeTelegram
  split
  · exact State.SameBut.onTrunk _ _
  · exact State.SameBut.onTrunk _ _
  · exact ((State.SameBut.onNotices _ _).trans (State.promoteMark_same _)).trans (State.SameBut.onTrunk _ _)
  · exact State.SameBut.onTrunk _ _
  · exact State.SameBut.refl s

theorem State.kick_same (s : State) : State.SameBut s s.kick := by
  unfold State.kick
  split
  · exact State.takeTelegram_same s
  · exact State.SameBut.refl s

/-- A notice changes the notices and the trunk's transmitter alone. -/
theorem State.post_same (s : State) (k : NoticeKind) (c : SourceClass) (i n : Nat) (v : Int) :
    State.SameBut s (s.post k c i n v) := by
  unfold State.post
  dsimp only
  split
  · exact (State.SameBut.onNotices _ _).trans (State.kick_same _)
  · exact State.SameBut.onNotices _ _

/-- A refusal changes the trunk and the notices alone. -/
theorem State.refuse_same (s : State) (st code tag : Nat) (r : Reason) (d : Nat) :
    State.SameBut s (s.refuse st code tag r d) := by
  unfold State.refuse
  split
  · exact (State.SameBut.onTrunk _ _).trans (State.kick_same _)
  · exact State.SameBut.onTrunk _ _

/-- A forwarded sample changes the trunk and the notices alone. -/
theorem State.forward_same (s : State) (u : UpSample) : State.SameBut s (s.forward u) := by
  unfold State.forward
  split
  · exact (State.SameBut.onTrunk _ _).trans (State.kick_same _)
  · exact State.SameBut.onTrunk _ _

/-- A reply changes the trunk, the notices and the model's count of draws alone. -/
theorem State.formReply_same (s : State) (dest seq cls code : Nat) (st : Status) (d : Nat) (r : ResultBytes) (x : Bool) :
    State.SameBut s (s.formReply dest seq cls code st d r x) := by
  unfold State.formReply
  dsimp only
  refine State.SameBut.trans ?_ (State.kick_same _)
  refine State.SameBut.trans ?_ (State.SameBut.onTrunk _ _)
  split
  · constructor <;> rfl
  · exact State.SameBut.refl s

@[simp] theorem State.formReply_work (s : State) (dest seq cls code : Nat) (st : Status) (d : Nat) (r : ResultBytes)
    (x : Bool) : (s.formReply dest seq cls code st d r x).work = s.work := (State.formReply_same ..).work
@[simp] theorem State.replies_work (s : State) (r : Request) (cls code : Nat) (st : Status) :
    (s.replies r cls code st).work = s.work := State.formReply_work ..
@[simp] theorem State.post_work (s : State) (k : NoticeKind) (c : SourceClass) (i n : Nat) (v : Int) :
    (s.post k c i n v).work = s.work := (State.post_same ..).work
@[simp] theorem State.refuse_work (s : State) (st code tag : Nat) (r : Reason) (d : Nat) :
    (s.refuse st code tag r d).work = s.work := (State.refuse_same ..).work
@[simp] theorem State.forward_work (s : State) (u : UpSample) : (s.forward u).work = s.work := (State.forward_same ..).work

/-! ## Requests -/

/-- What holds of a request that is taken. -/
theorem State.takes_iff {s : State} {o : Originator} {r : Request} :
    s.takes o r = true ↔ s.work = [] ∧ r.args.length ≤ 46 ∧ s.trunk.lost = false ∧ s.mgmt.stopped = false ∧
      s.trunk.placesUsed < 4 ∧ s.originatorOf r.src.toNat = some o ∧ s.inProgress o = none := by
  simp [State.takes, Request.wf, List.isEmpty_iff, and_assoc]

/-- The state that arrival and acceptance of a request leave for its handler. -/
theorem State.heard_received {s : State} {o : Originator} {src : Nat} (h : s.originatorOf src = some o)
    (hl : s.trunk.lost = false) :
    ((s.heard src).onTrunk fun t => { t with held := t.held + 1 }).touchIdle o = s.received o := by
  unfold State.originatorOf at h
  unfold State.heard State.received
  split at h
  · next hp =>
    cases h
    simp [hp, hl, State.touchIdle, State.onTrunk]
  · next hp =>
    split at h
    · cases h
      simp only [hp, ne_eq, not_false_eq_true, if_true, State.touchIdle, State.onTrunk, State.onExcise, idleTenths]
      by_cases hx : s.excise.lock = .unlocked <;> simp [hx]
    · cases h

theorem State.heard_lost {s : State} (src : Nat) (hl : s.trunk.lost = false) :
    (s.heard src).trunk = { s.trunk with silence := if src = s.plantAddr then some s.silenceTenths else s.trunk.silence } ∧
      (s.heard src).mgmt = s.mgmt ∧ (s.heard src).tables = s.tables ∧ (s.heard src).excise = s.excise ∧
      (s.heard src).work = s.work := by
  unfold State.heard
  by_cases h : src = s.plantAddr
  · simp [h, hl, State.onTrunk]
  · simp [h]

/-- A telegram of the plant controller on a lost trunk restores it with its notice, where the arbiter finds nothing to start. -/
theorem State.heard_restores {s : State} (hw : s.work = []) (hn : s.noScan = true) (hl : s.trunk.lost = true) :
    s.heard s.plantAddr =
      (s.onTrunk fun t => { t with silence := some s.silenceTenths, lost := false }).post .station .trunk s.plantAddr 1 0 := by
  have h := State.post_same (s.onTrunk fun t => { t with silence := some s.silenceTenths, lost := false }) .station .trunk
    s.plantAddr 1 0
  have hn' := (congrArg (fun x : TransferRun => x.running.isSome || x.requests.isEmpty) h.transfer).trans hn
  unfold State.heard
  rw [if_neg (by simp), if_pos hl]
  exact State.settle_emit_scan (h.work.trans hw) hn'

/-- A request that is taken is given to its handler, and answered where the handler has an answer. -/
theorem State.requestArrives_takes {s : State} {o : Originator} {r : Request} (h : s.takes o r = true) (cls code : Nat)
    (hd : Handler) : s.requestArrives cls code hd r = (s.received o).execute o cls code hd r := by
  obtain ⟨-, hr, hl, hs, hp, ho, hi⟩ := State.takes_iff.1 h
  obtain ⟨ht, hm, hb, he, -⟩ := State.heard_lost r.src.toNat hl
  have e1 : (s.heard r.src.toNat).originatorOf r.src.toNat = some o := by
    unfold State.originatorOf State.plantAddr State.terminalAddr at *
    rw [hb, he]
    exact ho
  have e2 : (s.heard r.src.toNat).trunk.placesUsed = s.trunk.placesUsed := by
    rw [ht]; rfl
  unfold State.requestArrives State.takeRequest
  rw [if_neg (by omega), hm, e2]
  rw [if_neg (by simp [hs]; omega)]
  simp only [e1, State.heard_received ho hl]
  have e3 : (s.received o).inProgress o = none := by
    cases o <;> exact hi
  rw [e3]

/-- A handler that answers at once: the reply is formed on the state it leaves. -/
theorem State.requestArrives_answers {s t : State} {o : Originator} {r : Request} (h : s.takes o r = true) {cls code : Nat}
    {hd : Handler} {a : Answered} (hh : hd o r (s.received o) = (t, some a)) :
    s.requestArrives cls code hd r = t.formReply r.src.toNat r.seq.toNat cls code a.status a.detail a.result false := by
  rw [State.requestArrives_takes h, State.execute, hh]

/-- A handler that begins a long request: no reply is formed. -/
theorem State.requestArrives_begins {s t : State} {o : Originator} {r : Request} (h : s.takes o r = true) {cls code : Nat}
    {hd : Handler} (hh : hd o r (s.received o) = (t, none)) : s.requestArrives cls code hd r = t := by
  rw [State.requestArrives_takes h, State.execute, hh]

@[simp] theorem State.received_work (s : State) (o : Originator) : (s.received o).work = s.work := rfl
@[simp] theorem State.received_clock (s : State) (o : Originator) : (s.received o).clock = s.clock := rfl
@[simp] theorem State.received_notices (s : State) (o : Originator) : (s.received o).notices = s.notices := rfl
@[simp] theorem State.received_field (s : State) (o : Originator) : (s.received o).field = s.field := rfl
@[simp] theorem State.received_intake (s : State) (o : Originator) : (s.received o).intake = s.intake := rfl
@[simp] theorem State.received_staged (s : State) (o : Originator) : (s.received o).staged = s.staged := rfl
@[simp] theorem State.received_tables (s : State) (o : Originator) : (s.received o).tables = s.tables := rfl
@[simp] theorem State.received_vessels (s : State) (o : Originator) : (s.received o).vessels = s.vessels := rfl
@[simp] theorem State.received_steeps (s : State) (o : Originator) : (s.received o).steeps = s.steeps := rfl
@[simp] theorem State.received_comps (s : State) (o : Originator) : (s.received o).comps = s.comps := rfl
@[simp] theorem State.received_turners (s : State) (o : Originator) : (s.received o).turners = s.turners := rfl
@[simp] theorem State.received_kilns (s : State) (o : Originator) : (s.received o).kilns = s.kilns := rfl
@[simp] theorem State.received_batch (s : State) (o : Originator) : (s.received o).batch = s.batch := rfl
@[simp] theorem State.received_transfer (s : State) (o : Originator) : (s.received o).transfer = s.transfer := rfl
@[simp] theorem State.received_filter (s : State) (o : Originator) : (s.received o).filter = s.filter := rfl
@[simp] theorem State.received_mgmt (s : State) (o : Originator) : (s.received o).mgmt = s.mgmt := rfl
@[simp] theorem State.received_draws (s : State) (o : Originator) : (s.received o).draws = s.draws := rfl
@[simp] theorem State.received_pending (s : State) (o : Originator) : (s.received o).pending = s.pending := rfl
@[simp] theorem State.received_excise_plant (s : State) : (s.received .plant).excise = s.excise := rfl

/-! ## Offers of the part's own blocks -/

/-- With no entry of the interlock table for its station, an offer's walk changes nothing. -/
theorem State.interlockWalk_none {s : State} {o : Offer} {t : Tbl Interlock} (h : ∀ e ∈ t, e.2.station ≠ o.station)
    (a : Int) (cs : List (Fin 2 × Nat)) : s.interlockWalk o t a cs = .ok (a, cs) := by
  induction t with
  | nil => rfl
  | cons e t ih =>
    obtain ⟨i, e⟩ := e
    have h1 : e.station ≠ o.station := h (i, e) (by simp)
    simp [State.interlockWalk, State.applies, h1, ih (fun x hx => h x (by simp [hx]))]

theorem State.roomFor_iff {s : State} {st code : Nat} {o : Origin} :
    s.roomFor st code o = true ↔ st ≠ 0 ∧ 1 ≤ code ∧ code ≤ 12 ∧ (s.tables.station.get st).isSome = true ∧
      s.modeAllows st o = true ∧
      (∀ e ∈ s.tables.interlock, e.2.station ≠ st) ∧ s.filter.entry st code = none ∧ s.filter.queue.length < 16 ∧
      s.filter.waiting = [] := by
  simp [State.roomFor, List.isEmpty_iff, and_assoc]

/-- An offer that finds room passes its checks, its argument narrowed by the kiln guard alone. -/
theorem State.checkOffer_room {s : State} {o : Offer} (h : s.roomFor o.station o.code o.origin = true)
    (hp : s.peatShut o.station o.code = false) :
    s.checkOffer o = .ok { offer := { o with arg := s.burnerGuard o.station o.code o.arg }
                           owner := s.tables.stationOwner o.station, caps := [] } := by
  obtain ⟨h1, h2, h3, h4, h5, h6, -, -, -⟩ := State.roomFor_iff.1 h
  unfold State.checkOffer
  rw [if_neg (by omega)]
  rw [if_neg (by simp [Option.isSome_iff_ne_none.1 h4])]
  simp only [hp, if_false, State.interlockWalk_none h6, Bool.false_eq_true]
  rw [if_neg]
  intro hm
  unfold State.modeAllows at h5
  cases ho : s.tables.stationOwner o.station with
  | none => simp [ho] at hm
  | some v => simp [ho] at hm h5; simp [hm] at h5

/-- An offer of one of the part's blocks that finds room goes to the back of the queue. -/
theorem State.offer_room {s : State} {o : Offer} (h : s.roomFor o.station o.code o.origin = true)
    (hp : s.peatShut o.station o.code = false) (ho : o.origin ≠ .plant) :
    s.offer o = s.onFilter fun f => { f with
      queue := f.queue ++ [{ offer := { o with arg := s.burnerGuard o.station o.code o.arg }
                             owner := s.tables.stationOwner o.station, caps := [] }] } := by
  obtain ⟨-, -, -, -, -, -, h7, h8, h9⟩ := State.roomFor_iff.1 h
  unfold State.offer
  rw [State.checkOffer_room h hp]
  simp [State.place, h7, h8, ho, State.dropRivals, h9]

theorem State.roomFor_serial (s : State) (n st code : Nat) (o : Origin) :
    (s.onFilter fun f => { f with serial := n }).roomFor st code o = s.roomFor st code o := rfl

theorem State.peatShut_serial (s : State) (n st code : Nat) :
    (s.onFilter fun f => { f with serial := n }).peatShut st code = s.peatShut st code := rfl

theorem State.burnerGuard_serial (s : State) (n st code : Nat) (a : Int) :
    (s.onFilter fun f => { f with serial := n }).burnerGuard st code a = s.burnerGuard st code a := rfl

/-- A block's offer that finds room, with an argument that the kiln guard leaves. -/
theorem State.blockOffer_room {s : State} {st code : Nat} {o : Origin} {p : Purpose} {a : Option Int}
    (h : s.roomFor st code o = true) (hp : s.peatShut st code = false) (ho : o ≠ .plant)
    (hg : s.burnerGuard st code (a.getD s.noArg) = a.getD s.noArg) :
    s.blockOffer o p st code a = s.queued st code (a.getD s.noArg) o p := by
  let x : Offer := { station := st, code := code, arg := a.getD s.noArg, origin := o, answer := .block p s.filter.serial }
  have e : s.blockOffer o p st code a = (s.onFilter fun f => { f with serial := s.filter.serial + 1 }).offer x := rfl
  have h' := (State.roomFor_serial s (s.filter.serial + 1) st code o).trans h
  have hp' := (State.peatShut_serial s (s.filter.serial + 1) st code).trans hp
  rw [e, State.offer_room (o := x) h' hp' ho, State.burnerGuard_serial, hg]
  rfl

/-- The kiln guard leaves the argument of a code that is no duty code. -/
theorem State.burnerGuard_of_code {s : State} {st code : Nat} (h : dutyCode code = false) (a : Int) :
    s.burnerGuard st code a = a := by
  simp [State.burnerGuard, allKilns, h]
  split <;> split <;> rfl

/-- An offer without an argument, of a code that is neither RUN nor a duty code. -/
theorem State.send_room {s : State} {st code : Nat} {o : Origin} {p : Purpose} (h : s.roomFor st code o = true)
    (h1 : code ≠ cRUN) (h2 : dutyCode code = false) (ho : o ≠ .plant) :
    s.send o p st code = s.queued st code s.noArg o p := by
  unfold State.send
  rw [State.blockOffer_room h (by simp [State.peatShut, h1]) ho (State.burnerGuard_of_code h2 _)]
  rfl

/-- An offer with an argument, of a code that is neither RUN nor a duty code. -/
theorem State.sendArg_room {s : State} {st code : Nat} {o : Origin} {p : Purpose} {a : Int}
    (h : s.roomFor st code o = true) (h1 : code ≠ cRUN) (h2 : dutyCode code = false) (ho : o ≠ .plant) :
    s.sendArg o p st code a = s.queued st code a o p := by
  unfold State.sendArg
  rw [State.blockOffer_room h (by simp [State.peatShut, h1]) ho (State.burnerGuard_of_code h2 _)]
  rfl

/-! ## Vessel numbers -/

@[simp] theorem vesselIs_steepNo (i : Fin 4) : vesselIs (steepNo i) = .steep i := by revert i; decide
@[simp] theorem vesselIs_compNo (c : Fin 6) : vesselIs (compNo c) = .comp c := by revert c; decide
@[simp] theorem vesselIs_kilnNo (k : Fin 2) : vesselIs (kilnNo k) = .kiln k := by revert k; decide
@[simp] theorem integNo_steepNo (i : Fin 4) : integNo (steepNo i) = none := by revert i; decide

/-! ## Owners and comparators -/

@[simp] theorem State.tellAll_nil (s : State) : s.tellAll [] = s := rfl
@[simp] theorem State.tellAll_cons (s : State) (t : Told) (ts : List Told) :
    s.tellAll (t :: ts) = (s.tellOwner t).tellAll ts := rfl

/-- An MP without a vessel for its owner tells no one. -/
theorem State.tellOwner_none {s : State} {t : Told} (h : ∀ v, t.owner ≠ .vessel v) : s.tellOwner t = s := by
  unfold State.tellOwner
  split
  · next v hv => exact absurd hv (h v)
  · rfl
  · rfl
  · rfl

/-- Of a compartment's comparators only an entry into HIGH has an effect on it. -/
theorem State.tellOwner_comp {s : State} {t : Told} {c : Fin 6} (h : t.owner = .vessel (compNo c))
    (h' : t.change ≠ .entersHigh) : s.tellOwner t = s := by
  simp [State.tellOwner, h, h']

/-- A kiln is HOLDING from the moment that one of its heat comparators enters SETTLING. -/
theorem State.tellOwner_kiln_settling {s : State} {t : Told} {k : Fin 2} (h : t.owner = .vessel (kilnNo k))
    (h' : t.role.heats = true) (h'' : t.change = .settling) :
    s.tellOwner t = s.onKiln k fun y => { y with thermal := .holding } := by
  simp [State.tellOwner, h, h', h'']

/-! ## Deliveries -/

/-- An MP that is not the lowest-numbered of its role delivers nothing. -/
theorem State.deliver_of_not_first {s : State} {n : Nat} {e : MpEntry} (h : s.mpOf e.owner e.role ≠ some n) (v : MpValue) :
    s.deliver n e v = s := by
  simp [State.deliver, h]

theorem State.deliver_none {s : State} {n : Nat} {e : MpEntry} (h : e.owner = .none) (v : MpValue) : s.deliver n e v = s := by
  simp [State.deliver, h]

/-- A demand that no compartment has gives the turner arbiter nothing to grant. -/
theorem State.turnerArbiter_of_idle {s : State} (h : ∀ c, (s.comp c).demand = none) : s.turnerArbiter = s := by
  have e : ∀ c, s.grantable c = none := fun c => by simp [State.grantable, h c]
  simp [State.turnerArbiter, State.pendingDemands, allComps, e]

/-! ## Register entries -/

/-- With no STORE_FAULT and an entry number left, an entry takes its number, its chain check and its slot. -/
theorem State.writeEntry_room {s : State} (e : Entry) (h : s.excise.storeFault = false) (h' : s.excise.now.next < max32) :
    s.writeEntry e = s.onExcise fun u => { u with
      now := { u.now with next := u.now.next + 1, chain := (s.stampEntry e).chain }
      slots := u.slots.put (slotOf u.now.next) (s.stampEntry e)
      fresh := u.fresh ++ [s.stampEntry e] } := by
  have hn : (s.stampEntry e).number = s.excise.now.next := by
    unfold State.stampEntry; cases s.clock.plant <;> rfl
  unfold State.writeEntry
  simp only [h, Bool.false_eq_true, if_false, hn]
  rw [if_neg (by omega), Nat.min_eq_right (by omega)]
  rfl

/-- Outside STORE_FAULT the close of an event sets out its store writes. -/
theorem State.closeEvent_room {s : State} (h : s.excise.storeFault = false) (b : Bool) :
    s.closeEvent b = s.onExcise fun e => { e with
      jobs := e.jobs ++ [{ entries := e.fresh, counters := e.now, reply := b }], fresh := [] } := by
  unfold State.closeEvent State.onExcise
  simp [h]

/-- Where an entry may be written, the unit is not in STORE_FAULT. -/
theorem Excise.storeFault_of_avail {e : Excise} (h : 1 ≤ e.avail) : e.storeFault = false := by
  cases hs : e.storeFault
  · rfl
  · simp [Excise.avail, Excise.free, hs] at h

end Sys2Proof.Machine
end

