-- ==== Sys2Proof/Tests/Slice0.lean ====
section
/-! SUPPORT. Tests/Slice0.lean: small checks of the model against the manual's own figures, ill-formed commands that the
well-formedness check refuses, and for each statement a state and operands that meet its hypotheses. -/

namespace Sys2Proof.Tests

open Sys2Proof Sys2Proof.Machine

-- The witnesses are checked one after another: the whole package then compiles with few threads.
set_option Elab.async false

/-! ## A small plant -/

/-- Stations 1..20, one steep, one compartment, two kilns and two turners, with a program of each class and one route. -/
def tables : Tables where
  station := (List.range 20).map fun i => (i + 1, { fwdUnmapped := false, window := 20 })
  schedule := { heads := [(1, 0)], descs := [(0, { station := 1, active := true })] }
  mp := [(0, { station := 1, channel := 0, kind := .level, owner := .vessel 0, role := .level, rmin := 0, rmax := 1000
               stale := 100, low := none, high := none, hyst := none, settle := 0, watch := false, forward := false }),
    (1, { station := 1, channel := 1, kind := .temperature, owner := .none, role := .none, rmin := -400, rmax := 1200
          stale := 100, low := none, high := none, hyst := none, settle := 0, watch := false, forward := false }),
    (2, { station := 1, channel := 2, kind := .mass, owner := .vessel 0, role := .grainMass, rmin := 0, rmax := 60000
          stale := 100, low := none, high := none, hyst := none, settle := 0, watch := false, forward := false }),
    (3, { station := 12, channel := 0, kind := .encoder, owner := .turner 0, role := .turnerEncoder, rmin := -9000
          rmax := 9000, stale := 100, low := none, high := none, hyst := none, settle := 0, watch := false, forward := false }),
    (4, { station := 12, channel := 1, kind := .runState, owner := .turner 0, role := .turnerState, rmin := -9, rmax := 20
          stale := 100, low := none, high := none, hyst := none, settle := 0, watch := false, forward := false }),
    (5, { station := 13, channel := 0, kind := .encoder, owner := .turner 1, role := .turnerEncoder, rmin := -9000
          rmax := 9000, stale := 100, low := none, high := none, hyst := none, settle := 0, watch := false, forward := false }),
    (6, { station := 13, channel := 1, kind := .runState, owner := .turner 1, role := .turnerState, rmin := -9, rmax := 20
          stale := 100, low := none, high := none, hyst := none, settle := 0, watch := false, forward := false }),
    (7, { station := 6, channel := 0, kind := .temperature, owner := .vessel 10, role := .airOffTemp, rmin := 0
          rmax := 1200, stale := 100, low := none, high := none, hyst := none, settle := 0, watch := false
          forward := false }),
    (8, { station := 15, channel := 0, kind := .total, owner := .run, role := .weigherTotal, rmin := 0, rmax := 2000000
          stale := 100, low := none, high := none, hyst := none, settle := 0, watch := false, forward := false })]
  vessel :=
    { steeps := [(0, { watch := 60, fill := 1, drain := 2, water := none, aerate := none, fan := 3, full := 900
                       empty := 10 })]
      comps := [(0, { watch := 60, air := 4, fan := 5, sprinkler := none, length := 1000 })]
      kilns := [(0, { watch := 60, air := 6, fan := 7, burner := 8, peat := none }),
        (1, { watch := 60, air := 9, fan := 10, burner := 11, peat := none })]
      turners := [(0, { drive := 12, moveLimit := 60, passLimit := 30, endTol := 5, markTol := 5 }),
        (1, { drive := 13, moveLimit := 60, passLimit := 30, endTol := 5, markTol := 5 })] }
  steep :=
    { headers := [(0, { count := 1, wide := { target := 4400, earlyCast := false, fillTimeout := 30, drainTimeout := 30
                                              settle := 20 } })]
      stages := [(1, { kind := .rest, duration := 60, water := 150, aeration := false, fan := 50, weigh := true })] }
  germ :=
    { headers := [(0, { count := 1, wide := () })]
      stages := [(1, { duration := 60, air := 160, fan := 50, interval := 30, spread := 0, bedHigh := none, litres := 0
                       ceiling := 0 })] }
  kiln :=
    { headers := [(0, { count := 1, wide := { coolDur := 30, coolFan := 50, overrideInt := 10, recoveryInt := 20
                                              blindCap := 2 } })]
      stages := [(1, { air := 600, fan := 50, endKind := .moisture, endValue := 450, minDur := 10, maxDur := 60
                       request := 6, minDuty := 2, peat := false, peatFloor := 0, airHigh := none, breakRise := 20
                       breakCeiling := 2000 })] }
  transfer :=
    { routes := [(0, [{ station := 14, number := 1 }])]
      run := some { drawer := 16, routeTime := 60, noFlow := 60, runOn := 60, drawLimit := 60, residue := 100 } }

/-- A batch in a vessel. -/
def batch (st : BatchState) (v : Nat) : Batch :=
  { id := 7, state := st, vessel := v, steepProg := 0, germProg := 0, kilnProg := 0, m0 := 1450
    acct := some { intake := 20000000, dry := 17100000, water := 2900000, moisture := 1450, rem := 0 } }

/-- The part after reset with these tables. -/
def base : State := { State.reset with tables, intake := { live := [(1, {}), (2, { status := .good, last := some { val := 20000 }, lastGood := some 0 }), (7, { status := .good, last := some { val := 640 }, lastGood := some 0 }), (8, { status := .good, last := some { val := 500 }, lastGood := some 0 })] } }

/-- A request from the plant controller, and one from the excise terminal. -/
def ask (args : List Byte) : Request := { src := 1, seq := 5, args }
def askExcise (args : List Byte) : Request := { src := 126, seq := 5, args }

/-- A transfer of that batch from steep 0, in a state. -/
def run (st : TransferState) : Running :=
  { kind := .cast, source := 0, dest := 4, fromPlant := false, batchId := 7, state := st, start := 0
    route := [{ step := { station := 14, number := 1 }, serial := 0, confirmed := true }], expected := 20000000, base := 0
    mass := 0, points := [5000000], next := 0, out := none, left := 3, routeTimer := none, noFlow := none, runOn := none
    draw := none, ranOn := false, cause := none, stops := [] }

/-- A transfer between other vessels runs, so that the arbiter does not scan. -/
def busyRun : State := base.onTransfer fun t => { t with running := some (run .running) }

/-! ## The manual's figures -/

/-- The state after reset is what power-up of a new part leaves (R144). -/
theorem test_reset : exec .powerOnReset {} = .next State.reset := by
  show Host.Outcome.next _ = _
  rw [show (({} : State).startUp .power).settle = State.reset by decide +kernel]

/-- Table 1-4: 20,000 kg at 14.50 %. -/
theorem test_intake_account : Account.intakeOf 20000 1450 =
    { intake := 20000000, dry := 17100000, water := 2900000, rem := 0, moisture := 1450 } := by decide

/-- The rest weighings of section 1.9: 28,500 kg gives M 4000, and 31,300 kg gives M 4536. -/
theorem test_weighing_first : ((batch .steeping 0).weigh 28500000).acct =
    some { intake := 20000000, dry := 17100000, water := 11400000, moisture := 4000, rem := 0 } := by decide
theorem test_weighing_second : ((batch .steeping 0).weigh 31300000).acct =
    some { intake := 20000000, dry := 17100000, water := 14200000, moisture := 4536, rem := 0 } := by decide

/-- Table 1-5, sample 10,300: E is 1592 and R is 300; sample 11,500: E is 1123 and R is 5100. -/
theorem test_drying_step : ((({ batch .germinating 6 with
      acct := some { intake := 20000000, dry := 17100000, water := 14200000, moisture := 4536, rem := 0 } } :
        Batch).dry 1873 17 300).dry 1873 6 600).acct =
    some { intake := 20000000, dry := 17100000, water := 14197285, moisture := 4536, rem := 5100 } := by decide

/-- Table 7-6: the draw points of 31,300,000 g with 3 draws from generator state 1. The second point is what R148 gives for
the table's own u 238, floor(15,462,200,000 / 768); the figure printed there, 20,132,552, does not follow from it
(assumption 17). -/
theorem test_draw_plan : planDraws 31300000 3 1 = ([6194791, 20133072, 24045572], 20196) := by decide

/-- Table 2-7: 856 enters HIGH over 850, 845 stays HIGH, and from HIGH under 900 the value 882 stays and 879 leaves. -/
theorem test_mp40_levels :
    let before : Limits := { lo := none, hi := some 850, hyst := 20, settle := 3 }
    let after : Limits := { before with hi := some 900 }
    (before.next .normal 856, before.next .high 845, after.next .high 882, after.next .high 879) =
      (.high, .high, .high, .normal) := by decide

/-- Table 5-9, minutes 10 and 14 of K1's ring. -/
def ringState (ring : List Int) (v : Int) (m streak : Nat) : State :=
  let f : KilnStage :=
    { air := 600, fan := 50, endKind := .brk, endValue := 0, minDur := 100, maxDur := 180, request := 6, minDuty := 2
      peat := false, peatFloor := 0, airHigh := none, breakRise := 30, breakCeiling := 1200 }
  let b := { batch .kilning 10 with acct := some { intake := 0, dry := 1, water := 0, moisture := m, rem := 0 } }
  (((({ base with batch := { slots := [(0, b)] } }).onVessel 10 fun x => { x with mode := .auto }).onKiln 0 fun x =>
    { x with phase := .firing, firing := 6000, minutes := 9, ring := ring, streak := streak, fields := some f }).onLive 7
      fun l => { l with last := some { val := v } })

def after (o : Host.Outcome State Fault Refusal) : State :=
  match o with
  | .next s => s
  | _ => {}

theorem test_ring_minute_10 :
    let k := (after (exec (.breakPoint 0) (ringState [310, 312, 315, 324, 336, 350] 366 1195 0))).kiln 0
    (k.ring, k.streak, k.declared) = ([312, 315, 324, 336, 350, 366], 1, false) := by decide +kernel
theorem test_ring_minute_14 :
    let k := (after (exec (.breakPoint 0) (ringState [324, 336, 350, 366, 381, 395] 408 1133 2))).kiln 0
    (k.ring, k.streak, k.declared) = ([336, 350, 366, 381, 395, 408], 3, true) := by decide +kernel

/-! ## Ill-formed commands, which the well-formedness check refuses -/

theorem test_wf_sample_short : (Instr.sampleTelegram 1 0 [1, 2, 3]).wf = false := by decide
theorem test_wf_sample_empty : (Instr.sampleTelegram 1 0 []).wf = false := by decide
theorem test_wf_sample_long : (Instr.sampleTelegram 1 0 (List.replicate 52 0)).wf = false := by decide
theorem test_wf_command_address : (Instr.trunkCommand 64 1 1 0 0).wf = false := by decide
theorem test_wf_known_request : (Instr.unknownRequest 1 0 [7, 1]).wf = false := by decide
theorem test_wf_payload_long : (Instr.unknownRequest 1 0 (List.replicate 49 0)).wf = false := by decide
theorem test_wf_request_long : (Instr.tableCommit (ask (List.replicate 47 0))).wf = false := by decide
theorem test_wf_request : (Instr.tableCommit (ask [1])).wf = true := by decide

/-! ## Witnesses: the step and the resets -/

theorem witness_StepRunsTheFrontCommand : State.reset.pending = [] := rfl

/-- A part whose PART RESET has been answered. -/
def due : State := base.onMgmt fun m => { m with resetDue := true }

theorem witness_ResetClearsEveryBlock : due.mgmt.resetDue = true := rfl

/-- A formatted store, as the first start-up leaves it once its writes are complete. -/
def written : State := after (exec .countersCopyWritten State.reset)

theorem witness_StartUpWritesRestartAndLock : (written.excise.nv.recover.best.any fun k =>
    k.counters.restart.isNone && decide (1 ≤ k.counters.next) && decide (k.counters.next + 1 < max32) &&
      decide (k.counters.next - 1 - k.counters.exported + k.counters.reservation < 512) &&
      decide (k.counters.next - 1 - k.counters.exported < 511)) = true := by decide +kernel

theorem witness_invariants : base.safe :=
  ⟨⟨by decide +kernel, by decide +kernel⟩, ⟨by decide, by decide, by decide⟩, ⟨by decide, by decide, by decide⟩⟩

/-! ## Witnesses: the field line -/

def marked : State := base.onField fun f => { f with busy := true, heldMark := true }
def held : State := base.onField fun f => { f with heldMark := true, adopt := true }

theorem witness_MarkIsHeldOrStartsItsCycle_mark :
    (marked.work = [] ∧ marked.field.busy = true) ∧
    (base.work = [] ∧ base.field.busy = false ∧ base.filter.queue = [] ∧
      base.field.sched.heads.get ((base.field.cycle + 1) % timeModulus % 16) = none ∧ base.field.heldMark = false) ∧
    ((held.onTables fun t => { t with schedule := {} }).work = [] ∧ held.field.heldMark = true ∧
      (held.onTables fun t => { t with schedule := {} }).tables.schedule.heads.get 1 = none) := by decide +kernel

/-- MP 7 is GOOD with the stale limit 100, and MP 2 too; 101 tenths after their last good time. -/
theorem witness_MarkIsHeldOrStartsItsCycle_stale :
    let s := base.onClock fun c => { c with process := 101 }
    s.tables.mp.wf = true ∧ s.tables.mp.get 9 = none ∧ (s.tables.mp.get 7).any (fun e => e.stale = 100) = true ∧
    (s.live 7).lastGood = some 0 ∧ (s.live 7).status = .good ∧ 100 < (s.clock.process + timeModulus - 0) % timeModulus ∧
    (base.live 7).lastGood = some 0 ∧ (base.clock.process + timeModulus - 0) % timeModulus ≤ 100 := by decide +kernel

theorem witness_MarkIsHeldOrStartsItsCycle_poll :
    held.work = [] ∧ held.field.busy = false ∧ held.field.adopt = true ∧
    held.tables.schedule.heads.get ((held.field.cycle + 1) % timeModulus % 16) = some 0 ∧
    (held.tables.schedule.desc 0).active = true ∧ (held.tables.station.get 1).isSome = true := by decide +kernel

/-- MP 1 with a comparator. -/
theorem witness_ComparatorMovesByTable :
    ((base.onLive 1 fun l => { l with comp := some (.steady .high) }).live 1).comp = some (.steady .high) := by decide +kernel

/-- MP 1 with a high limit, of a compartment's bed or of a kiln's air. -/
def limited (o : Owner) (r : Role) (c : Comparator) : State :=
  (base.onTables fun t => { t with mp := [(1, { station := 1, channel := 1, kind := .temperature, owner := o, role := r
                                                rmin := -400, rmax := 1200, stale := 100, low := none, high := some 850
                                                hyst := some 20, settle := 3, watch := false, forward := false })] }).onLive 1
    fun l => { l with comp := some c }

theorem witness_ComparatorMovesByTable_changes :
    let s := limited (.vessel (compNo 0)) .bedTemp1 (.settling .high 2)
    let k := limited (.vessel (kilnNo 0)) .airOnTemp (.steady .high)
    let m := limited .none .none (.settling .high 1)
    let lim (u : State) (h : Option Int) := (u.tables.mp.get 1).map fun e => (e.limits h).hi
    (s.live 1).comp = some (.settling .high 2) ∧ (m.live 1).comp = some (.settling .high 1) ∧
    (s.tables.mp.get 1).any (fun e => decide (0 < e.settle)) = true ∧ lim s none = some (some 850) ∧ lim s (some 900) = some (some 900) ∧
    lim k none ≠ lim k (some 900) ∧
    (((s.onTables fun t => { t with mp := t.mp.map fun e => (e.1, { e.2 with high := none }) }).onLive 1 fun l =>
      { l with stageHigh := some 5, comp := some (.steady .low) }).live 1).stageHigh = some 5 ∧
    (base.live 1).comp = none := by decide +kernel

/-- Station 1 is being polled, and nothing is to follow. -/
def polled : State := base.onField fun f => { f with
  busy := true, phase := .polling 1 20 3 none 1, health := [(1, { up := true, misses := 2, lastGood := none })] }

theorem witness_SampleAnswersThePoll :
    polled.work = [] ∧ polled.filter.queue = [] ∧ polled.field.phase = .polling 1 20 3 none 1 ∧
    (polled.field.health.get 1).any (·.up) = true ∧
    ((polled.mapEntry 1 1).any fun e => e.2.owner = .none && !e.2.watch && !e.2.forward && (polled.live e.1).comp.isNone)
      = true ∧
    polled.mapEntry 1 9 = none := by decide +kernel

/-- A kiln's burner, a second grain mass of steep 0, and a level of steep 0 with the watch flag. -/
def mapped : State := (polled.onTables fun t => { t with
  mp := t.mp ++ [(9, { station := 1, channel := 3, kind := .runState, owner := .vessel 10, role := .burnerState, rmin := 0
                       rmax := 4, stale := 100, low := none, high := none, hyst := none, settle := 0, watch := false
                       forward := false }),
    (10, { station := 1, channel := 4, kind := .mass, owner := .vessel 0, role := .grainMass, rmin := 0, rmax := 60000
           stale := 100, low := none, high := none, hyst := none, settle := 0, watch := true, forward := false })] }).onVessel 0
    fun r => { r with mode := .auto, blind := true }

theorem witness_SampleAnswersThePoll_owner :
    (mapped.mapEntry 1 3).any (fun e => decide (e.1 = 9 ∧ e.2.owner = .vessel (kilnNo 0) ∧ e.2.role = .burnerState)) = true ∧
    mapped.mpOf (.vessel 10) .burnerState = some 9 ∧ entryValue .runState 3 = { val := 3 } ∧
    (mapped.mapEntry 1 4).any (fun e => decide (mapped.mpOf e.2.owner e.2.role ≠ some e.1) && e.2.watch) = true ∧
    (mapped.live 9).comp = none ∧ mapped.tables.vessel.watchOf 0 = some 60 ∧ (mapped.vessel 0).mode ≠ .off ∧
    (mapped.vessel 0).blind = true ∧ (base.vessel 0).mode = .off ∧ (base.vessel 0).blind = false := by decide +kernel

theorem witness_EntrySetsStatusAndValue :
    let e : MpEntry :=
      { station := 1, channel := 1, kind := .temperature, owner := .none, role := .none, rmin := -400, rmax := 1200
        stale := 100, low := none, high := none, hyst := none, settle := 0, watch := false, forward := false }
    let take (q b : Nat) : MpStatus × Option MpValue := (({} : MpLive).take e { channel := 1, quality := q, bits := b } 9).status
      |> fun st => (st, (({} : MpLive).take e { channel := 1, quality := q, bits := b } 9).last)
    take 3 100 = (.failed, none) ∧ take 0 1200 = (.good, some { val := 1200 }) ∧
      take 1 1201 = (.clamped, some { val := 1200 }) ∧ take 0 (2 ^ 22 - 400) = (.good, some { val := -400 }) ∧
      take 1 (2 ^ 22 - 401) = (.clamped, some { val := -400 }) := by decide

theorem witness_MissedPollCountsAgainstTheStation :
    polled.work = [] ∧ polled.filter.queue = [] ∧ polled.field.phase = .polling 1 20 3 none 1 ∧
    (polled.field.health.get 1).any (fun h => h.up && decide (3 ≤ min 15 (h.misses + 1))) = true := by decide +kernel

theorem witness_BadTelegramsAreCounted_field :
    base.work = [] ∧ checkPasses [1, 2, 3] = false ∧
    (checkPasses (telegram 112 1 2 0 []) = true ∧ (frameOf (telegram 112 1 2 0 [])).any (fun f => f.kind = tPOLL) = true) ∧
    samplePayloadOk [0, 0, 0, 0] = true ∧ base.field.phase = .idle := by decide +kernel

/-- A PLANT command for station 17 is out in the window, and then one of a steep. -/
def flown (a : Answer) : State := (base.onFilter fun f => { f with
  queue := [{ offer := { station := 17, code := 1, arg := 0, origin := .plant, answer := a }, owner := none, caps := []
              flight := some { tag := 9, arg := 0, answer := a, owner := none } }] }).onField fun f => { f with
  phase := .window 17 20 [] }

theorem witness_CommandsAreConfirmedOrTimeOut_confirm :
    let s := (flown (.plant 9)).onField fun f => { f with phase := .idle }
    let u := (flown (.block (.vessel 0) 4)).onField fun f => { f with phase := .idle }
    s.work = [] ∧ s.field.phase = .idle ∧ s.filter.matching 17 8 = none ∧
    ((s.filter.matching 17 9).any fun p => !p.2.replaced && decide (p.2.answer = .plant 9)) = true ∧
    s.filter.waiting = [] ∧
    ((u.filter.matching 17 9).any fun p => !p.2.replaced && decide (p.2.answer = .block (.vessel 0) 4) &&
      decide (p.1.tries < 3)) = true := by decide +kernel

/-- The CONFIRM inside its own wait, with nothing left to send and with a next command; a block's command out for the fourth
time; a SPRINKLE to a compartment whose batch is GERMINATING; a replaced command. -/
theorem witness_CommandsAreConfirmedOrTimeOut_own_wait :
    let next : SendCmd := { station := 18, code := 1, arg := 0, tag := 0 }
    let s (a : Answer) (rest : List SendCmd) := (flown a).onField fun f => { f with phase := .window 17 20 rest }
    let out (a : Answer) (g : QEntry → QEntry) := (flown a).onFilter fun f => { f with queue := f.queue.map g }
    let last := out (.block (.vessel 5) 4) fun e => { e with tries := 3 }
    let spray := (out (.plant 9) fun e => { e with
      offer := { e.offer with code := cSPRINKLE }
      flight := e.flight.map fun x => { x with arg := 50, owner := some (compNo 0) } }).onBatch fun u => { u with
        slots := [(0, batch .germinating 4)] }
    let again := out (.plant 9) fun e => { e with flight := e.flight.map fun x => { x with replaced := true } }
    ((s (.plant 9) []).work = [] ∧ (s (.plant 9) []).field.phase = .window 17 20 [] ∧
      ((s (.plant 9) []).filter.matching 17 9).isSome = true ∧ ((s (.plant 9) []).dropEntry 17 1).filter.queue = []) ∧
    ((s (.block (.vessel 0) 4) [next]).field.phase = .window 17 20 (next :: []) ∧ next.station ≠ 0 ∧
      ((s (.block (.vessel 0) 4) [next]).filter.matching 17 9).isSome = true) ∧
    (((last.onVessel 5 fun x => { x with mode := .auto }).filter.matching 17 9).any (fun p => decide (3 ≤ p.1.tries)) = true ∧
      ((last.onVessel 5 fun x => { x with mode := .auto }).vessel 5).mode = .auto) ∧
    (((spray.filter.matching 17 9).any fun p => decide (p.1.offer.code = cSPRINKLE ∧ 0 < p.2.arg ∧
        p.2.owner = some (compNo 0))) = true ∧ spray.batchAt (compNo 0) = some (0, batch .germinating 4) ∧
      spray.batch.slots.get 0 = some (batch .germinating 4)) ∧
    ((again.filter.matching 17 9).any fun p => p.2.replaced) = true ∧
    ((again.field.phase = .window 17 20 [] ∧ again.filter.queue.length = 1 ∧ again.filter.waiting = [])) := by
  decide +kernel

theorem witness_CommandsAreConfirmedOrTimeOut_wait :
    (flown (.plant 9)).work = [] ∧ (flown (.plant 9)).field.phase = .window 17 20 [] ∧
    (flown (.plant 9)).filter.queue.length = 1 ∧ (flown (.plant 9)).filter.waiting = [] ∧
    ((base.onField fun f => { f with phase := .window 17 20 [{ station := 18, code := 1, arg := 0, tag := 0 }] }).field.phase
      = .window 17 20 [{ station := 18, code := 1, arg := 0, tag := 0 }]) := by decide +kernel

/-- The command queue is full of OVERRIDE commands, and the transfer run has an offer. -/
def crowded (n : Nat) : State := base.onFilter fun f => { f with
  queue := (List.range n).map fun i => { offer := { station := i + 1, code := 9, arg := 0, origin := .override
                                                    answer := .block .route 0 }, owner := none, caps := [] } }
def anOffer (st code : Nat) (n : Nat) : Offer :=
  { station := st, code, arg := 0, origin := .sequencer, answer := .block .draw n }

theorem witness_WaitingOffersAreOfferedAgain :
    let w : WEntry := { offer := anOffer 17 1 5, since := 0 }
    let s := (flown (.plant 9)).onFilter fun f => { f with waiting := [w] }
    let s' := s.onField fun f => { f with phase := .idle }
    let u := (s'.dropEntry 17 1).onFilter fun f => { f with waiting := [] }
    let v := s'.onFilter fun f => { f with queue := f.queue ++ [{ offer := { anOffer 18 9 3 with origin := .override }
                                                                  owner := none, caps := [] }] }
    let y := (v.dropEntry 17 1).onFilter fun f => { f with waiting := [] }
    (16 ≤ (crowded 16).filter.queue.length ∧ (crowded 16).filter.entry 17 1 = none ∧ (crowded 16).filter.waiting = []) ∧
    ((crowded 16).filter.entry 17 9 = none ∧ ((crowded 16).filter.entry 16 9).any (fun x => x.offer.origin = .override) = true) ∧
    w.rivals (anOffer 17 1 6) = true ∧
    (match (crowded 16).checkOffer (anOffer 17 1 6), y.checkOffer (anOffer 18 9 5) with
      | .ok _, .ok _ => true
      | _, _ => false) = true ∧
    (s'.work = [] ∧ s'.field.phase = .idle ∧ (s'.filter.matching 17 9).any (fun p => !p.2.replaced) = true) ∧
    u.roomFor 17 1 .sequencer = true ∧ (y.filter.entry 18 9).any (fun x => x.offer.origin = .override) = true := by
  decide +kernel

/-- R158, R161: a PLANT command rejected after it was replaced in the window is refused at the end of the window, not at its
CONFIRM, and its entry's new content stays; a second CONFIRM of it is stray. -/
theorem test_replaced_command_is_told_at_the_window_end :
    let s := ((flown (.plant 9)).onFilter fun f => { f with queue := f.queue.map fun e => { e with
      flight := e.flight.map fun x => { x with replaced := true } } }).onField fun f => { f with phase := .idle }
    let u := after (exec (.confirmTelegram 17 9 false) s)
    let w := u.settleFlights
    u.trunk.refusals = [] ∧ (u.filter.matching 17 9).isNone = true ∧
    u.trunk.tx = none ∧ w.trunk.tx.isSome = true ∧ w.filter.queue.map (·.offer) = s.filter.queue.map (·.offer) ∧
    w.filter.queue.all (fun e => e.flight.isNone) = true := by decide +kernel

theorem witness_BurnerDeliveryStaysWithinTheCap :
    (base.kilnCfg 0).any (fun g => g.burner = 8) = true := by decide +kernel

theorem witness_InterlockWalkActsInOrder :
    let e : Interlock := { station := 17, code := none, onPlant := true, onSequencer := false, onOverride := false
                           cond := .always, is := true, action := .refuse }
    let o : Offer := { station := 17, code := 1, arg := 5, origin := .plant, answer := .plant 9 }
    let s := base.onTables fun t => { t with interlock := [(3, e)] }
    s.applies e o = true ∧ (match s.interlockWalk o s.tables.interlock 5 [] with
      | .error i => decide (i = 3)
      | .ok _ => false) = true ∧
    s.work = [] ∧ s.trunk.lost = false ∧ s.ownAddr ≠ 17 ∧ s.plantAddr = 1 ∧ (s.tables.station.get 17).isSome = true ∧
    s.modeAllows 17 .plant = true := by decide +kernel

/-! ## Witnesses: the vessels -/

def auto (v : Fin 12) (st : BatchState) : State :=
  (base.onVessel v fun x => { x with mode := .auto }).onBatch fun u => { u with slots := [(0, batch st v.val)] }

theorem witness_WatchExpiryBlindsTheVessel :
    let s := base.onVessel 0 fun x => { x with watch := some 0 }
    s.work = [] ∧ (s.vessel 0).watch = some 0 ∧ s.tables.vessel.watchOf 0 = some 60 := by decide +kernel

def resting : State := (auto 0 .steeping).onSteep 0 fun x => { x with
  phase := .resting, phaseTimer := some 0
  fields := some { kind := .rest, duration := 60, water := 150, aeration := false, fan := 50, weigh := true } }

theorem witness_SteepTimersEndTheirWaits_rest :
    (resting.work = [] ∧ resting.steepMode 0 = .auto ∧ resting.steepBlind 0 = false ∧
      (resting.steep 0).phase = .resting ∧ (resting.steep 0).phaseTimer = some 0 ∧
      (resting.steep 0).fields.any (·.weigh) = true ∧ (resting.steepWide 0).any (fun w => w.settle = 20) = true) ∧
    ((resting.onSteep 0 fun x => { x with wait := some (.settle, 0) }).steep 0).wait = some (.settle, 0) := by decide +kernel

/-- Steep 0 ends a phase before a next one of a kind. -/
def phaseEnding (old : SteepState) (k : PhaseKind) : State :=
  ((auto 0 .steeping).onTables fun t => { t with steep := { t.steep with
    headers := t.steep.headers.map fun e => (e.1, { e.2 with count := 2 })
    stages := t.steep.stages ++ [(2, { kind := k, duration := 60, water := 150, aeration := false, fan := 50, weigh := false })]
    } }).onSteep 0 fun x => { x with phase := old, phaseTimer := some 0 }

theorem witness_SteepTimersEndTheirWaits_start :
    let s := phaseEnding .draining
    (∀ k : Fin 3, let p := [PhaseKind.wet, .drain, .rest][k]
      (s p).work = [] ∧ (s p).steepMode 0 = .auto ∧ (s p).steepBlind 0 = false ∧ ((s p).steep 0).phaseTimer = some 0 ∧
      ((s p).steepPhases 0)[((s p).steep 0).index + 1]?.map (·.kind) = some p ∧ ((s p).steep 0).co2Hold = false ∧
      (s p).roomFor 3 cSTOP .sequencer = true ∧ (s p).filter.queue.length ≤ 12 ∧ ((s p).steepWide 0).isSome = true ∧
      (s p).usableRole (.vessel (steepNo 0)) .level = none) ∧
    ((s .wet).steepCfg 0).any (fun g => decide (g.fill = 1 ∧ g.drain = 2 ∧ g.fan = 3 ∧ g.water = none)) = true ∧
    (s .wet).roomFor 2 cCLOSE .sequencer = true ∧ (s .wet).roomFor 1 cOPEN .sequencer = true ∧
    (s .drain).roomFor 2 cOPEN .sequencer = true ∧ (s .rest).roomFor 3 cRUN .sequencer = true ∧
    (s .rest).roomFor 3 cSETPOINT .sequencer = true ∧ (s .rest).peatShut 3 cRUN = false ∧
    (s .rest).burnerGuard 3 cSETPOINT 50 = 50 := by decide +kernel

def waits (p : SteepState) (w : WaitFor) : State := (auto 0 .steeping).onSteep 0 fun x => { x with
  phase := p, wait := some (w, 0) }

theorem witness_SteepTimersEndTheirWaits_timeouts :
    ((waits .weighing .window).work = [] ∧ (waits .weighing .window).steepMode 0 = .auto ∧
      ((waits .weighing .window).vessel 0).fault = none ∧ (waits .weighing .window).filter.waiting = []) ∧
    ((waits .filling .fill).steepCfg 0).any (fun g => g.fill = 1 && g.drain = 2) = true ∧
    (waits .filling .fill).roomFor 1 cCLOSE .override = true ∧
    (waits .draining .drain).roomFor 2 cCLOSE .override = true ∧ ((waits .draining .drain).steep 0).drained = false := by
  decide +kernel

theorem witness_SteepLevelsMoveThePhases :
    let s (p : SteepState) (a : Option Nat) := (((auto 0 .steeping).onSteep 0 fun x => { x with
      phase := p
      fields := some { kind := .wet, duration := 60, water := 150, aeration := false, fan := 50, weigh := false } }).onTables
        fun t => { t with vessel := { t.vessel with steeps := t.vessel.steeps.upd 0 fun c => { c with aerate := a } } })
    (s .filling none).mpOf (.vessel (steepNo 0)) .level = some 0 ∧
    ((s .filling none).steepCfg 0).any (fun g => decide (g.full = 900 ∧ g.empty = 10 ∧ g.fill = 1 ∧ g.drain = 2)) = true ∧
    (s .filling none).steepMode 0 = .auto ∧ base.steepMode 0 ≠ .auto ∧ (s .filling none).transfer.running = none ∧
    (s .filling none).roomFor 1 cCLOSE .sequencer = true ∧ (s .draining none).roomFor 2 cCLOSE .sequencer = true ∧
    ((s .draining none).steep 0).drained = false ∧
    (s .filling (some 17)).roomFor 17 cSTOP .sequencer = true ∧ (s .filling (some 17)).roomFor 17 cRUN .sequencer = true ∧
    (s .filling (some 17)).peatShut 17 cRUN = false ∧ (s .filling (some 17)).filter.queue.length < 15 := by decide +kernel

def germ : State := ((auto 4 .germinating).onTransfer fun t => { t with running := some (run .running) }).onComp 0
  fun x => { x with phase := .germinating, stageTimer := some 0, interval := some 0 }

theorem witness_CompartmentTimersEndTheirWaits :
    germ.work = [] ∧ germ.compTimersRun 0 = true ∧ (germ.comp 0).stageTimer = some 0 ∧
    (germ.germStages 0)[(germ.comp 0).index + 1]? = none ∧ germ.transfer.running.isSome = true ∧
    germ.hasRequest (compNo 0) = false ∧ (germ.comp 0).interval = some 0 ∧ (germ.comp 0).demand = none ∧
    (germ.turner 0).state ≠ .idle ∧ (germ.turner 1).state ≠ .idle := by decide +kernel

theorem witness_CompartmentTimersEndTheirWaits_start :
    let f : GermStage :=
      { duration := 60, air := 160, fan := 50, interval := 30, spread := 3, bedHigh := some 200, litres := 0, ceiling := 0 }
    let s := germ.onTables fun t => { t with germ := { t.germ with
      headers := [(0, { count := 2, wide := () })], stages := t.germ.stages ++ [(2, f)] } }
    s.work = [] ∧ s.compTimersRun 0 = true ∧ (s.comp 0).stageTimer = some 0 ∧
    (s.germStages 0)[(s.comp 0).index + 1]? = some f ∧ s.tables.mp.wf = true ∧
    (s.compCfg 0).any (fun k => decide (k.air = 4 ∧ k.fan = 5)) = true ∧
    (∀ e ∈ s.tables.mp, e.2.owner = .vessel (compNo 0) → e.2.role.bed = false) ∧ s.filter.queue.length < 14 ∧
    s.roomFor 4 cSETPOINT .sequencer = true ∧ s.roomFor 5 cRUN .sequencer = true ∧
    s.roomFor 5 cSETPOINT .sequencer = true ∧ s.burnerGuard 4 cSETPOINT 160 = 160 ∧
    s.burnerGuard 5 cSETPOINT 50 = 50 ∧ s.peatShut 5 cRUN = false := by decide +kernel

def moving (st : TurnerState) : State := base.onTurner 0 fun x => { x with
  state := st, position := some 1, assigned := some 0, moveTimer := some 0, passTimer := some 0 }

theorem witness_TurnerTimeoutsFaultTheTurner :
    (moving .moving).work = [] ∧ ((moving .moving).turner 0).assigned = some 0 ∧
    ((moving .moving).turnerCfg 0).any (fun g => g.drive = 12) = true ∧
    (moving .moving).roomFor 12 cSTOP .sequencer = true ∧ ((moving .moving).comp 0).faults = 0 ∧
    ((moving .moving).turner 1).state ≠ .idle ∧ ((moving .passOut).turner 0).passTimer = some 0 := by decide +kernel

theorem witness_EncoderTracksThePass :
    let s (st : TurnerState) (p : Nat) (m : Bool) := base.onTurner 0 fun x => { x with
      state := st, position := some 1, assigned := if st = .homing then none else some 0, pass := p, passLength := 1000
      marker := m }
    base.mpOf (.turner 0) .turnerEncoder = some 3 ∧ (base.turnerCfg 0).any (fun g => decide (g.endTol = 5 ∧ g.markTol = 5)) = true ∧
    ((s .idle 6 false).turner 0).marker = false ∧ ((s .idle 6 false).turner 0).position.isSome = true ∧
    (base.turner 0).position = none ∧ (base.turner 0).state = .unhomed ∧
    1000 ≤ ((s .passOut 995 false).turner 0).pass + 5 ∧ (s .passOut 995 false).roomFor 12 cBACK .sequencer = true ∧
    ((s .passBack 5 false).turner 0).pass ≤ 5 ∧ (s .passBack 5 false).roomFor 12 cSTOP .sequencer = true ∧
    (s .passBack 5 false).work = [] ∧ (s .passBack 5 false).bedHot 0 = false ∧ (s .passBack 5 false).noScan = true ∧
    (∀ c, ((s .passBack 5 false).comp c).demand = none) ∧
    ((s .homing 5 false).turner 0).target = none ∧ (s .homing 5 false).roomFor 12 cSTOP .sequencer = true ∧
    ((base.onMgmt fun m => { m with plant := some { src := 1, seq := 0, cls := 4, code := 1, home1 := true } }).mgmt.plant.any
      fun q => q.home1 && !q.home0) = true := by decide +kernel

/-- Kiln 0 fires in AUTO, on its program's stage. -/
def firing : State := (auto 10 .kilning).onKiln 0 fun x => { x with
  phase := .firing, firing := 6000, minutes := 9, grant := 6, cap := 6, fields := some
    { air := 600, fan := 50, endKind := .moisture, endValue := 450, minDur := 10, maxDur := 60, request := 6, minDuty := 2
      peat := false, peatFloor := 0, airHigh := none, breakRise := 20, breakCeiling := 2000 } }

theorem witness_BreakPointsBuildTheRing :
    let s (n k : Nat) := firing.onKiln 0 fun x => { x with ring := List.replicate n 600, streak := k }
    (s 5 2).work = [] ∧ (s 5 2).minuteDue 0 = true ∧ ((s 5 2).kiln 0).fields.isSome = true ∧
    (s 5 2).usableRole (.vessel (kilnNo 0)) .airOffTemp = some 640 ∧
    (s 5 2).moistureAt (kilnNo 0) = some 1450 ∧ ((s 5 2).kiln 0).declared = false ∧
    ((s 6 0).onLive 7 fun l => { l with status := .failed }).usableRole (.vessel (kilnNo 0)) .airOffTemp = none := by
  decide +kernel

theorem witness_FiringTimeEndsTheStage :
    let s (n : Nat) := firing.onKiln 0 fun x => { x with minutes := n / 600, firing := n }
    (s 6000).work = [] ∧ (s 6000).minimumDue 0 = true ∧ (s 36000).maximumDue 0 = true ∧
    ((s 36000).kiln 0).fields.any (fun f => decide (f.minDur ≤ f.maxDur) && !(s 36000).endMet 0 f &&
      decide (f.endKind ≠ .time)) = true ∧
    ((s 36000).kilnStages 0)[((s 36000).kiln 0).index + 1]? = none ∧ ((s 36000).vessel 10).fault = none ∧
    firing.filter.waiting = [] := by decide +kernel

def cooling : State := (firing.onKiln 0 fun x => { x with phase := .cooling, cool := some 0 }).onTransfer fun t =>
  { t with running := some (run .running) }

def timed (request minDuty : Nat) : KilnStage :=
  { air := 600, fan := 50, endKind := .time, endValue := 0, minDur := 10, maxDur := 60, request, minDuty, peat := false
    peatFloor := 0, airHigh := none, breakRise := 20, breakCeiling := 2000 }

/-- Kiln 0 has fired the minimum duration of a TIME stage, with a grant and cap, before a next stage that asks 6 and needs
2; the other kiln has a grant. -/
def stageEnding (grant rival : Nat) : State :=
  ((firing.onTables fun t => { t with kiln := { t.kiln with
    headers := t.kiln.headers.map fun e => (e.1, { e.2 with count := 2 }), stages := t.kiln.stages ++ [(2, timed 6 2)] }
    }).onKiln 0 fun x => { x with minutes := 10, grant := grant, cap := grant, fields := some (timed 6 2) }).onKiln 1
      fun x => { x with grant := rival, cap := rival }

theorem witness_KilnStagesStartAndCool_start :
    let s := stageEnding
    (∀ p ∈ [(6, 6), (3, 4), (0, 11), (7, 6)],
      (s p.1 p.2).work = [] ∧ (s p.1 p.2).minimumDue 0 = true ∧ (s p.1 p.2).endMet 0 (timed 6 2) = true ∧
      ((s p.1 p.2).kiln 0).firing / 600 ≤ ((s p.1 p.2).kiln 0).minutes ∧
      ((s p.1 p.2).kilnStages 0)[((s p.1 p.2).kiln 0).index + 1]? = some (timed 6 2) ∧
      ((s p.1 p.2).kilnStages 0)[0]?.isSome = true ∧ ((s p.1 p.2).kiln 0).gate = false ∧
      (∀ z ∈ (s p.1 p.2).tables.mp, z.2.owner = .vessel (kilnNo 0) → z.2.role ≠ .airOnTemp) ∧
      (s p.1 p.2).roomFor 6 cSETPOINT .sequencer = true ∧ (s p.1 p.2).roomFor 7 cRUN .sequencer = true ∧
      (s p.1 p.2).roomFor 7 cSETPOINT .sequencer = true ∧ (s p.1 p.2).roomFor 8 cSETPOINT .sequencer = true ∧
      (s p.1 p.2).roomFor 8 cRUN .sequencer = true ∧ (s p.1 p.2).roomFor 8 cDUTYCAP .override = true ∧
      (s p.1 p.2).kilnBlind 0 = false ∧ ((s p.1 p.2).kiln 0).thermal = .clear) ∧
    ((s 6 6).kilnCfg 0).any (fun g => decide (g.air = 6 ∧ g.fan = 7 ∧ g.burner = 8 ∧ g.peat = none)) = true ∧
    ((s 6 6).kilnCfg 1).any (fun g => decide (g.burner = 11 ∧ g.peat = none)) = true ∧
    min 6 ((s 6 6).budget - 6) = 6 ∧ 3 < min 6 ((s 3 4).budget - 4) ∧ min 6 ((s 0 11).budget - 11) < 2 ∧
    (s 7 6).regrants (other 0) = false ∧ min 6 ((s 7 6).budget - 6) < 7 := by decide +kernel

theorem witness_KilnStagesStartAndCool_regrant :
    let s (p : KilnState) (g : Nat) := ((stageEnding 10 g).onVessel 11 fun x => { x with mode := .auto }).onKiln 1 fun x =>
      { x with phase := p, fields := some (timed 6 2) }
    let u := (s .waitHeat 0).setGrant 0 2
    2 < ((s .waitHeat 0).kiln 0).grant ∧ ((s .waitHeat 0).kiln (other 0)).fields = some (timed 6 2) ∧
    (s .waitHeat 0).kilnMode (other 0) = .auto ∧ ((s .waitHeat 0).kiln (other 0)).phase = .waitHeat ∧
    ((s .waitHeat 0).kiln (other 0)).index = 0 ∧ 2 ≤ min 6 ((s .waitHeat 0).budget - 2) ∧
    ((s .waitHeat 0).kiln (other 0)).thermal = .clear ∧ (s .waitHeat 0).kilnBlind (other 0) = false ∧
    ((s .waitHeat 0).kiln (other 0)).cap = 0 ∧ ((s .waitHeat 0).kiln (other 0)).gate = false ∧
    u.filter.queue.length < 14 ∧ u.roomFor 11 cDUTYCAP .override = true ∧ u.roomFor 11 cRUN .sequencer = true ∧
    u.roomFor 11 cSETPOINT .sequencer = true ∧
    ((s .firing 2).kiln (other 0)).phase = .firing ∧ ((s .firing 2).kiln (other 0)).grant < 6 ∧
    (stageEnding 10 0).kilnMode (other 0) ≠ .auto := by decide +kernel

theorem witness_KilnStagesStartAndCool_end :
    ((firing.kilnStages 0)[(firing.kiln 0).index + 1]? = none ∧ (firing.kilnWide 0).isSome = true ∧
      (firing.kiln 0).cap ≤ (firing.kiln 0).grant) ∧
    (cooling.work = [] ∧ (cooling.kiln 0).cool = some 0 ∧ cooling.coolRuns 0 = true ∧
      cooling.roomFor 7 cSTOP .sequencer = true ∧ cooling.hasRequest 10 = false) := by decide +kernel

theorem witness_StepTimerMovesTheCap :
    let d := firing.onKiln 0 fun x => { x with step := some (.down, 0), thermal := .hot }
    let u := firing.onKiln 0 fun x => { x with step := some (.up, 0), cap := 3 }
    d.work = [] ∧ (d.kilnCfg 0).any (fun g => g.burner = 8) = true ∧ (d.kilnWide 0).isSome = true ∧
    d.kilnMode 0 ≠ .off ∧ (d.kiln 0).index ≠ 255 ∧ d.roomFor 8 cDUTYCAP .override = true ∧
    (d.kilnCfg (other 0)).map (·.burner) ≠ some 8 ∧ 0 < (d.kiln 0).cap ∧
    (u.kiln 0).thermal = .clear ∧ (u.kiln 0).cap < u.capTarget 0 ∧ u.roomFor 8 cDUTYCAP .override = true := by decide +kernel

/-- Kiln 0's measurement points for drying and peat. -/
def drying : State := firing.onTables fun t => { t with
  mp := t.mp ++ [(9, { station := 6, channel := 1, kind := .humidity, owner := .vessel 10, role := .airOffHumidity, rmin := 0
                       rmax := 2000, stale := 100, low := none, high := none, hyst := none, settle := 0, watch := false
                       forward := false }),
    (10, { station := 6, channel := 2, kind := .runState, owner := .vessel 10, role := .peatState, rmin := 0, rmax := 4
           stale := 100, low := none, high := none, hyst := none, settle := 0, watch := false, forward := false }),
    (11, { station := 6, channel := 3, kind := .humidity, owner := .vessel 10, role := .airOnHumidity, rmin := 0
           rmax := 2000, stale := 100, low := none, high := none, hyst := none, settle := 0, watch := false
           forward := false }),
    (12, { station := 6, channel := 4, kind := .airflow, owner := .vessel 10, role := .fanFlow, rmin := 0, rmax := 6000
           stale := 100, low := none, high := none, hyst := none, settle := 0, watch := false, forward := false })] }

theorem witness_PeatIsTracked :
    drying.mpOf (.vessel (kilnNo 0)) .peatState = some 10 ∧ (drying.batchAt (kilnNo 0)).isSome = true ∧
    base.batchAt (kilnNo 0) = none ∧ ((drying.onKiln 0 fun y => { y with peatTime := some 0, peatRem := 9 }).kiln 0).peatTime
      = some 0 := by decide +kernel

theorem witness_HumidityAttemptsADryingStep :
    let s (t : Option Nat) := drying.onInteg (kilnNo 0) fun g => { g with last := t }
    let u := ((s (some 0)).onLive 11 fun l => { l with status := .good, last := some { val := 60 } }).onLive 12 fun l =>
      { l with status := .good, last := some { val := 1873 } }
    (s none).mpOf (.vessel (kilnNo 0)) .airOffHumidity = some 9 ∧ ((s none).dryingAt (kilnNo 0)).isSome = true ∧
    base.dryingAt (kilnNo 0) = none ∧ (bank (s none).batch.integ 6).last = none ∧ (bank (s (some 0)).batch.integ 6).last = some 0 ∧
    u.usableRole (.vessel (kilnNo 0)) .airOnHumidity = some 60 ∧ u.usableRole (.vessel (kilnNo 0)) .fanFlow = some 1873 ∧
    (s (some 0)).usableRole (.vessel (kilnNo 0)) .fanFlow = none := by decide +kernel

/-! ## Witnesses: the transfer run -/

def runs (f : Running → Running) (st : TransferState) : State := base.onTransfer fun t => { t with running := some (f (run st)) }

theorem witness_TransferTimersEndTheirWaits :
    let s := runs (fun r => { r with routeTimer := some 0 }) .routing
    let d := runs (fun r => { r with draw := some 0, out := some { index := 0, late := false, massAt := 0, sampleAt := none, serial := 1 } }) .running
    let n := runs (fun r => { r with noFlow := some 0 }) .running
    let o := runs (fun r => { r with runOn := some 0 }) .clearing
    s.work = [] ∧ s.roomFor 14 cSTOP .override = true ∧
    (s.transfer.running.any fun r => decide (r.routeTimer = some 0) && decide (r.route.length = 1)) = true ∧
    (d.transfer.running.any fun r => decide (r.draw = some 0)) = true ∧
    (n.transfer.running.any fun r => decide (r.noFlow = some 0)) = true ∧
    (o.transfer.running.any fun r => decide (r.runOn = some 0) && decide (r.next < r.points.length)) = true := by
  decide +kernel

theorem witness_DrawsFollowTheMass :
    let out (o : DrawOut → DrawOut) (r : Running) : Running :=
      { r with out := some (o { index := 0, late := false, massAt := 0, sampleAt := some 4, serial := 1 }) }
    let s := (runs id .running).onTables fun t => { t with
      mp := t.mp ++ [(9, { station := 16, channel := 0, kind := .runState, owner := .run, role := .drawerState, rmin := -2
                           rmax := 9999, stale := 100, low := none, high := none, hyst := none, settle := 0, watch := false
                           forward := false })] }
    let d := (runs (out fun o => { o with confirmed := true }) .running).onBatch fun u => { u with slots := [(0, batch .casting 0)] }
    s.mpOf .run .weigherTotal = some 8 ∧ s.mpOf .run .drawerState = some 9 ∧ s.tables.transfer.run.isSome = true ∧
    (s.transfer.running.any fun r => r.out.isNone && decide (r.points[r.next]? = some 5000000 ∧ r.mass < 5000000)) = true ∧
    s.roomFor 16 cDRAW .sequencer = true ∧ s.roomFor 14 cSTOP .override = true ∧
    (d.batchAt 0).isSome = true ∧ d.excise.storeFault = false ∧ d.excise.now.next < max32 ∧
    (d.transfer.running.any fun r => r.out.any fun o => o.confirmed && o.report.isNone && decide (o.sampleAt = some 4)) = true := by
  decide +kernel

/-- A STRIP of kiln 0 that only its run-on still holds, and an aborted CAST of steep 0 that waits for its STOP. -/
def stripped : State := ((runs (fun r => { r with
  kind := .strip, source := 10, dest := 12, runOn := some 0, points := [5], next := 1 }) .clearing).onBatch fun u =>
    { u with slots := [(0, batch .stripping 10)] }).onKiln 0 fun x => { x with phase := .stripping }
def stopping : State := ((((runs (fun r => { r with cause := some .operator, stops := [{ serial := 4 }] }) .aborted).onBatch
  fun u => { u with slots := [(0, batch .casting 0)] }).onSteep 0 fun x => { x with phase := .casting }).onFilter fun f =>
    { f with queue := [{ offer := { station := 14, code := cSTOP, arg := 0, origin := .override, answer := .block .stopAbort 4 }
                         owner := none, caps := []
                         flight := some { tag := 9, arg := 0, answer := .block .stopAbort 4, owner := none } }] })

theorem witness_FinishedTransfersLeaveTheirBatch :
    (stripped.work = [] ∧ (stripped.batchAt (kilnNo 0)).isSome = true ∧ stripped.roomFor 14 cSTOP .override = true ∧
      stripped.excise.storeFault = false ∧ stripped.excise.now.next < max32 ∧ stripped.excise.now.restart = none ∧
      stripped.excise.pendingLock = none ∧ stripped.mpsOf (.vessel (kilnNo 0)) .airOnTemp = [] ∧
      (stripped.kiln 0).grant = 0 ∧ (stripped.kiln 0).gate = false ∧ stripped.transfer.requests = [] ∧
      (stripped.transfer.running.any fun r => decide (r.state = .clearing ∧ r.points.length ≤ r.next ∧ r.source = kilnNo 0)) = true) ∧
    (stopping.work = [] ∧ stopping.field.phase = .idle ∧
      (stopping.filter.matching 14 9).any (fun p => !p.2.replaced && decide (p.1.offer.code = cSTOP)) = true ∧
      stopping.filter.waiting = [] ∧ (stopping.batchAt (steepNo 0)).isSome = true ∧
      (stopping.transfer.running.any fun r => decide (2 * r.mass < r.expected ∧ r.source = steepNo 0 ∧ r.dest.val = (compNo 0).val))
        = true ∧
      (stopping.steep 0).phase = .casting ∧ stopping.steepMode 0 ≠ .auto ∧
      (∀ e ∈ stopping.tables.mp, e.2.owner = .vessel (compNo 0) → e.2.role.bed = false) ∧ stopping.mgmt.plant = none ∧
      (stopping.onMgmt fun m => { m with plant := some { src := 1, seq := 0, cls := 5, code := 3 } }).mgmt.plant.isSome = true) := by
  decide +kernel

theorem witness_TransferStartReservesAndPlans_start :
    let s := auto 0 .steeping
    (s.batchAt 0).isSome = true ∧ s.weigher = some 500 ∧ s.excise.storeFault = false ∧ s.excise.now.next + 1 < max32 := by
  decide +kernel

theorem witness_TransferStartReservesAndPlans_points : 60000 ≤ 60000 ∧ 8 ≤ 8 ∧ (planDraws 60000 8 1).1.length = 8 := by decide +kernel

/-! ## Witnesses: the excise unit -/

theorem witness_EntryJoinsTheChain : base.excise.storeFault = false ∧ base.excise.now.next < max32 := by decide

theorem witness_StoreWritesEndDurableOrInFault :
    base.work = [] ∧ base.excise.jobs.length = 1 ∧ base.excise.storeFault = false ∧ base.transfer.running = none := by decide

def unlocked : State := base.onExcise fun e => { e with lock := .unlocked, idle := some 0 }

theorem witness_LockAndTrunkTimersEndTheirStates :
    (unlocked.work = [] ∧ unlocked.excise.idle = some 0 ∧ unlocked.mgmt.excise = none ∧ 1 ≤ unlocked.excise.avail ∧
      unlocked.excise.now.next < max32) ∧
    (base.onExcise fun e => { e with lock := .lockedOut, lockout := some 0 }).excise.lockout = some 0 ∧
    (base.onTrunk fun t => { t with silence := some 0 }).trunk.silence = some 0 := by decide

/-- A lost trunk, with a STRIP request of kiln K0 that can start. -/
def lostTrunk : State := ((((base.onTrunk fun t => { t with lost := true }).onVessel 10 fun x => { x with mode := .auto }).onKiln 0
  fun x => { x with phase := .readyStrip }).onBatch fun b => { b with slots := [(0, batch .kilning 10)] }).onTables fun t =>
    { t with transfer := { t.transfer with routes := (List.range 38).map fun i => (i, [{ station := 14, number := 1 }]) } }

theorem witness_LockAndTrunkTimersEndTheirStates_restore :
    let tele := telegram 80 1 tCOMMAND 5 []
    let s := lostTrunk.onTransfer fun u => { u with
      requests := [{ kind := .strip, source := 10, dest := some 12, fromPlant := false, time := 0 }] }
    let up := (s.onTrunk fun t => { t with silence := some s.silenceTenths, lost := false }).post .station .trunk 1 1 0
    lostTrunk.work = [] ∧ lostTrunk.trunk.lost = true ∧ lostTrunk.noScan = true ∧ checkPasses tele = true ∧
    (frameOf tele).any (fun f => decide (f.src = 1 ∧ f.dst = 80)) = true ∧ s.plantAddr = 1 ∧ s.transfer.running = none ∧
    ((s.transfer.requests.findSome? fun x => (up.eligible x).map fun y => (x, y)).any fun p =>
      decide ((up.startTransfer p.1 p.2).ownAddr ≠ 80) && (up.startTransfer p.1 p.2).work.isEmpty &&
        (up.startTransfer p.1 p.2).transfer.running.isSome) = true := by decide +kernel

/-! ## Witnesses: the trunk -/

/-- The transmitter is sending a telegram. -/
def sending (o : TxFrom) : State := base.onTrunk fun t => { t with tx := some { origin := o, bytes := [] } }

def aNotice : Notice := { kind := .excise, cls := .excise, idx := 0, state := 0, count := 1, value := 0, time := 0 }

theorem witness_TransmitterTakesByPriority :
    let s := sending .notice
    (s.work = [] ∧ s.trunk.tx.isSome = true ∧ s.mgmt.resetDue = false) ∧
    ((sending (.reply true)).trunk.tx.map (·.origin) = some (.reply true)) ∧
    ((s.onTrunk fun t => { t with replies := [{ dest := 1, seq := 0, payload := [] }] }).trunk.replies.length = 1) ∧
    ((s.onTrunk fun t => { t with refusals := [{ station := 1, code := 1, tag := 0, reason := 1, detail := 0 }] }).trunk.replies
      = []) ∧
    ((s.onNotices fun q => { q with queue := [aNotice] }).notices.marks = []) ∧
    ((s.onTrunk fun t => { t with up := [{ src := 1, seq := 0, payload := [0, 0, 0, 0] }] }).notices.queue = []) := by decide

/-- Three marks are pending, and the second has the earliest time, which the third shares. -/
theorem witness_TransmitterTakesByPriority_mark :
    let m (k : NoticeKind) (i t : Nat) : Notice := { aNotice with kind := k, idx := i, time := t }
    let s (k : NoticeKind) := (sending .notice).onNotices fun _ =>
      { queue := List.replicate 32 aNotice, marks := [m .slip 0 9] ++ m k 0 3 :: [m .draw 1 3] }
    (s .limit).work = [] ∧ (s .limit).trunk.replies = [] ∧ (s .limit).trunk.refusals = [] ∧
    (s .limit).mgmt.resetDue = false ∧ (s .limit).notices.queue = aNotice :: List.replicate 31 aNotice ∧
    (s .mode).notices.marks = [m .slip 0 9] ++ m .mode 0 3 :: [m .draw 1 3] ∧
    (∀ z ∈ [m .slip 0 9], 3 < z.time) ∧ (∀ z ∈ [m .draw 1 3], 3 ≤ z.time) ∧
    (m .station 1 3).kind = .station := by decide +kernel

theorem witness_NoticeJoinsTheQueueOrItsMark :
    let full := (sending .notice).onNotices fun _ => { queue := List.replicate 32 aNotice, marks := [aNotice] }
    ((sending .notice).notices.queue.length < 32 ∧ (sending .notice).trunk.tx.isSome = true) ∧
    32 ≤ full.notices.queue.length ∧ full.notices.marks = [] ++ aNotice :: [] ∧
    aNotice.key = (.excise, .excise, 0) ∧ (∀ m ∈ full.notices.marks, m.key ≠ (.mp |> fun c => (.limit, c, 4))) := by decide

theorem witness_TelegramsAreTheirCommands :
    base.trunk.lost = false ∧ base.ownAddr < 256 ∧ base.ownAddr ≠ 17 ∧ base.plantAddr ≠ 9 ∧ base.work = [] ∧
    (lostTrunk.trunk.lost = true ∧ lostTrunk.noScan = true ∧ lostTrunk.ownAddr < 256 ∧ lostTrunk.work = []) := by decide +kernel

theorem witness_BadTelegramsAreCounted_trunk :
    base.work = [] ∧ checkPasses [] = false ∧
    (let b := beBytes 2 (crc16 []).toNat
     checkPasses b = true ∧ frameOf b = none) ∧
    (let b := telegram 100 9 7 0 []
     checkPasses b = true ∧
      (frameOf b).any (fun f => decide (f.src ≠ base.plantAddr ∧ f.dst ≠ base.ownAddr ∧ 63 < f.dst)) = true) := by
  decide +kernel

theorem witness_PlantCommandIsRelayed :
    base.work = [] ∧ base.trunk.lost = false ∧ base.ownAddr ≠ 17 ∧ base.plantAddr = 1 ∧
    base.roomFor 17 1 .plant = true ∧ base.filter.plantCount < 12 := by decide +kernel

/-! ## Witnesses: requests -/

/-- The entry of CONFIGURATION that holds the firing budget. -/
theorem witness_WritesAndDiscardsAreStaged :
    entriesOf 1 = some 4 ∧ exciseTable 1 = false ∧ base.takes .plant (ask [1, 3, 0, 10]) = true ∧
    (base.staged.write 1 3 [0, 10]).isSome = true ∧ base.staged.write 1 3 [0, 17] = none ∧
    base.takes .excise (askExcise [1, 3, 0, 10]) = true ∧ base.takes .plant (ask [1]) = true ∧
    base.takes .excise (askExcise [1]) = true := by decide +kernel

theorem witness_CommitReplacesOrRefuses :
    let s := (base.onKiln 0 fun x => { x with grant := 6 }).onStaged fun t => { t with config := { budget := some 4 } }
    (s.takes .plant (ask [1]) = true ∧ s.commitOk 1 ≠ .ok ∧
      s.staged.config = { s.tables.config with budget := s.staged.config.budget } ∧ s.ownAddr = 112 ∧ s.plantAddr = 1 ∧
      s.terminalAddr = 126 ∧ s.staged.config.budgetOf < (s.kiln 0).grant + (s.kiln 1).grant) ∧
    (s.takes .plant (ask [5]) = true ∧ (entriesOf 5).isSome = true ∧ s.commitOk 5 = .ok) := by decide +kernel

theorem witness_CommitReplacesOrRefuses_tables :
    let s := base.onStaged fun t => { t with station := tables.station }
    let x := busyRun.onStaged fun t => { t with station := [] }
    (∀ id ∈ [1, 2, 3, 5, 6, 7, 8, 9, 10], s.commitOk id = .ok ∧ (entriesOf id).isSome = true) ∧
    s.takes .plant (ask [10]) = true ∧ s.noScan = true ∧ s.staged.config.budgetOf ≤ s.budget ∧
    (∀ i, s.steepMode i ≠ .auto) ∧ (∀ c, (s.comp c).phase ≠ .germinating) ∧ (∀ k, (s.kiln k).phase ≠ .waitHeat) ∧
    (x.transfer.running.any fun r => r.route.any fun l => (x.staged.station.get l.step.station).isNone) = true ∧
    x.takes .plant (ask [2]) = true ∧
    x.staged.transfer.ok = true ∧ x.staged.transfer.run.map (·.drawer) ≠ x.tables.transfer.run.map (·.drawer) := by
  decide +kernel

/-- A new MP in number 9, and number 1 emptied. -/
theorem witness_CommitReplacesOrRefuses_mp :
    let e : MpEntry := { (default : MpEntry) with station := 9, owner := .vessel 4, role := .bedTemp1, high := some 200 }
    let s := base.onStaged fun t => { t with mp := (tables.mp.del 1).put 9 { e with kind := .temperature, stale := 100 } }
    s.takes .plant (ask [4]) = true ∧ s.commitOk 4 = .ok ∧ (s.live 1).comp = none ∧ (s.live 9).comp = none ∧
    (∀ v, watchMpIn s.staged.mp v = watchMpIn s.tables.mp v) ∧ (∀ i, (s.steep i).co2Hold = false ∧ s.co2High i = false) ∧
    (∀ k, s.heatComparators k = [] ∧ (s.kiln k).thermal = .clear ∧ (s.kiln k).heatSeen = false) ∧
    ((after (exec (.tableCommit (ask [4])) s)).live 9).comp = some (.steady .normal) := by decide +kernel

theorem witness_BatchOpenMakesARecord :
    let s := base.onVessel 0 fun x => { x with mode := .manual }
    s.takes .plant (ask [0, 7, 0, 0, 0, 0, 5, 170]) = true ∧ s.takes .excise (askExcise [0, 7, 0, 0, 0, 0, 5, 170]) = true ∧
    s.batchOf 7 = none ∧ s.freeSlot = some 0 ∧
    s.batchAt (steepNo 0) = none ∧ s.steepMode 0 ≠ .off ∧ base.steepMode 0 = .off ∧
    ((auto 0 .steeping).batchOf 7).isSome = true ∧
    (base.onBatch fun u => { u with slots := (List.range 16).map fun i => (i, { batch .done 0 with id := i + 50 }) }).freeSlot
      = none := by decide +kernel

def openedIn (m : Mode) : State := (base.onVessel 0 fun x => { x with mode := m }).onBatch fun u =>
  { u with slots := [(0, { batch .opened 0 with acct := none })] }

theorem witness_StartSteepWeighsTheBatchIn :
    let s := openedIn .manual
    s.takes .plant (ask [0, 7]) = true ∧ (s.batchOf (ofBytes [0, 7])).any (fun e => e.2.vessel = 0) = true ∧
    s.steepMode 0 = .manual ∧ (s.steep 0).phase = .empty ∧
    s.usableRole (.vessel (steepNo 0)) .grainMass = some 20000 ∧ 1 ≤ s.excise.avail ∧ s.excise.now.next < max32 := by
  decide +kernel

theorem witness_AccountIsRebasedAndDried_weigh : (batch .steeping 0).acct.isSome = true := rfl

theorem witness_AccountIsRebasedAndDried_dry :
    (batch .germinating 4).acct.any (fun a => decide (a.water ≤ 50000000) && decide (1873 * 17 * 300 / 6000 ≤ a.water)) = true ∧
    ({ batch .germinating 4 with acct := some { intake := 0, dry := 60000, water := 3, moisture := 0, rem := 5 } } :
      Batch).acct.any (fun a => decide (a.water < (1873 * 17 * 300 + 5) / 6000)) = true := by decide

theorem witness_AbandonEmptiesTheSteep :
    let s := openedIn .hold
    s.takes .plant (ask [0, 7]) = true ∧ (s.batchOf (ofBytes [0, 7])).any (fun e => e.2.acct.isNone) = true ∧
    s.steepMode 0 ≠ .off ∧ s.steepBlind 0 = false ∧ (s.steep 0).phase = .empty ∧
    (s.steepCfg 0).any (fun g => g.aerate.isNone && decide (g.fan = 3)) = true ∧ s.roomFor 3 cSTOP .override = true ∧
    s.noScan = true ∧ 1 ≤ s.excise.avail ∧ s.excise.now.next < max32 := by decide +kernel

theorem witness_ReleaseFreesTheSlot :
    let s (st : BatchState) := base.onBatch fun u => { u with slots := [(0, batch st 0)] }
    (s .done).takes .plant (ask [0, 7]) = true ∧ (s .done).takes .excise (askExcise [0, 7]) = true ∧
    ((s .done).batchOf (ofBytes [0, 7])).any (fun e => e.2.state = .done) = true ∧
    ((s .steeping).batchOf (ofBytes [0, 7])).any (fun e => e.2.state ≠ .done && e.2.state ≠ .abandoned) = true ∧
    base.batchOf (ofBytes [0, 7]) = none := by decide +kernel

theorem witness_VesselRequestsSetModeAndGrant_mode :
    let s := base.onVessel 0 fun x => { x with mode := .hold, fault := some .fillTimeout }
    s.takes .plant (ask [0, 1]) = true ∧ Mode.manual.code = 1 ∧ s.hasEntry 0 = true ∧ s.noScan = true ∧
    ((auto 0 .steeping).batchAt 0).isSome = true ∧ (auto 0 .steeping).hasEntry 0 = true := by decide +kernel

/-- A compartment that germinates in HOLD, with a bed fan and an air station of its own. -/
def germHeld : State := (base.onVessel 4 fun x => { x with mode := .hold }).onComp 0 fun x => { x with
  phase := .germinating, fields := some { (default : GermStage) with air := 160, fan := 50 } }

theorem witness_VesselRequestsSetModeAndGrant_auto :
    let u := germHeld.onVessel 4 fun x => { x with mode := .auto }
    let e := base.onVessel 0 fun x => { x with mode := .manual }
    base.takes .plant (ask [0, 2]) = true ∧ Mode.auto.code = 2 ∧ (base.vessel 0).mode = .off ∧ base.phaseEmpty 0 = true ∧
    (∀ c, (base.comp c).demand = none) ∧ base.co2High 0 = false ∧ (base.steep 0).co2Hold = false ∧ base.hasEntry 0 = true ∧
    base.noScan = true ∧ e.takes .plant (ask [0, 2]) = true ∧ e.phaseEmpty 0 = true ∧
    germHeld.takes .plant (ask [4, 2]) = true ∧ germHeld.hasEntry 4 = true ∧ germHeld.noScan = true ∧
    (germHeld.comp 0).index ≠ 255 ∧ (∀ c, (germHeld.comp c).demand = none) ∧ germHeld.filter.queue.length < 14 ∧
    u.roomFor 4 cSETPOINT .sequencer = true ∧ u.roomFor 5 cRUN .sequencer = true ∧ u.roomFor 5 cSETPOINT .sequencer = true := by
  decide +kernel

theorem witness_VesselRequestsSetModeAndGrant_off :
    let s := [0, 4, 10].foldl (fun (s : State) v => s.onVessel v fun x => { x with mode := .auto }) base
    let w := s.onTables fun t => { t with vessel := { t.vessel with steeps := t.vessel.steeps.map fun e =>
      (e.1, { e.2 with aerate := some 17 }) } }
    s.takes .plant (ask [0, 0]) = true ∧ s.takes .plant (ask [4, 0]) = true ∧ s.takes .plant (ask [10, 0]) = true ∧
    Mode.off.code = 0 ∧ s.noScan = true ∧ (∀ v ∈ [0, 4, 10], s.hasEntry v = true ∧ s.batchAt v = none ∧
      (s.vessel v).blind = false ∧ (s.vessel v).mode ≠ .off) ∧ s.transfer.reserved = none ∧
    s.roomFor 5 cSTOP .override = true ∧ s.roomFor 3 cSTOP .override = true ∧ w.roomFor 17 cSTOP .override = true ∧
    (s.steep 0).phase = .empty ∧ (s.kiln 0).grant = 0 ∧ (s.kiln 0).gate = false ∧
    s.roomFor 8 cSTOP .override = true ∧ s.roomFor 7 cSTOP .override = true ∧ s.filter.queue.length < 15 := by
  decide +kernel

theorem witness_VesselRequestsSetModeAndGrant_grant :
    let s := (base.onVessel 10 fun x => { x with mode := .manual }).onKiln 0 fun x => { x with
      phase := .firing, grant := 6, cap := 4, thermal := .hot }
    s.takes .plant (ask [10, 8]) = true ∧ s.kilnMode 0 = .manual ∧ (s.kiln 0).index ≠ 255 ∧
    8 ≤ s.budget - (s.kiln (other 0)).grant ∧ (s.kiln 0).thermal ≠ .clear ∧ (s.kiln 0).step = none ∧
    s.kilnMode (other 0) ≠ .auto ∧ (s.onKiln 1 fun x => { x with grant := 6 }).budget - 6 < 8 := by decide +kernel

/-- Compartment C0 in AUTO with its interval timer at its end; turner 0 IDLE at position p, turner 1 at 7. -/
def granting (p : Nat) : State := (((((base.onVessel 4 fun x => { x with mode := .auto }).onComp 0 fun x => { x with
  phase := .germinating, interval := some 0 }).onTurner 0 fun x => { x with state := .idle, position := some p }).onTurner 1
    fun x => { x with position := some 7 }).onBatch fun b => { b with slots := [(0, batch .germinating 4)] })

/-- The same with a sprinkler and a stage that sprinkles. -/
def sprinkling (p : Nat) : State := ((granting p).onTables fun t => { t with vessel := { t.vessel with
  comps := t.vessel.comps.map fun e => (e.1, { e.2 with sprinkler := some 18 }) } }).onComp 0 fun x => { x with
    fields := some { (default : GermStage) with litres := 50, ceiling := 4600 } }

theorem witness_TurnersAreGrantedHomedAndCleared_grant :
    (∀ p ∈ [0, 1], (granting p).work = [] ∧ (granting p).compTimersRun 0 = true ∧ (∀ d, ((granting p).comp d).demand = none) ∧
      ((granting p).turner 0).target = none ∧ ((granting p).turner 1).target = none ∧
      ((granting p).turner (other 0)).state ≠ .idle ∧ (granting p).roomFor 12 cMOVETO .sequencer = true ∧
      (granting p).roomFor 12 cFORWARD .sequencer = true ∧ ((granting p).comp 0).fields = none) ∧
    ((granting 0).compCfg 0).isSome = true ∧ ((granting 0).turnerCfg 0).any (fun g => decide (g.drive = 12)) = true ∧
    ((sprinkling 1).moistureAt 4).any (fun m => decide (m < 4600)) = true ∧ ((sprinkling 1).comp 0).index ≠ 255 ∧
    (sprinkling 1).roomFor 18 cSPRINKLE .sequencer = true ∧ (sprinkling 1).filter.queue.length < 15 := by decide +kernel

theorem witness_TurnersAreGrantedHomedAndCleared_arrive :
    let s (st : TurnerState) (b : Bool) := (granting 0).onTurner 0 fun x => { x with
      state := st, target := some 1, moveAccepted := b, assigned := some 0, moveSerial := some 4 }
    let owed (u : State) := u.onComp 0 fun x => { x with demand := some { kind := .scheduled, time := 0, turner := some 0 } }
    let x := (s .moving false).onFilter fun f => { f with queue := [{
      offer := { station := 12, code := cMOVETO, arg := 1, origin := .sequencer, answer := .block (.drive 0) 4 }
      owner := none, caps := []
      flight := some { tag := 9, arg := 1, answer := .block (.drive 0) 4, owner := none } }] }
    x.field.phase = .idle ∧ x.filter.waiting = [] ∧ x.work = [] ∧ (x.filter.matching 12 9).any (fun p => !p.2.replaced) = true ∧
    base.mpOf (.turner 0) .turnerState = some 4 ∧ (1 : Int) ≠ 11 ∧
    ((owed (s .moving true)).comp 0).demand.any (fun d => d.turner = some 0) = true ∧
    (owed (s .moving true)).roomFor 12 cFORWARD .sequencer = true ∧ (owed (s .moving true)).compMode 0 = .auto ∧
    (((owed (s .moving true)).onComp 0 fun x => { x with phase := .ready }).comp 0).phase ≠ .germinating ∧
    ((owed (s .moving true)).onVessel 4 fun x => { x with mode := .manual }).compMode 0 ≠ .auto ∧
    ((s .homing true).comp 0).demand = none ∧ (s .homing true).roomFor 12 cBACK .sequencer = true ∧
    ((granting 0).turner 0).assigned = none ∧ (granting 0).roomFor 12 cSTOP .sequencer = true := by decide +kernel

theorem witness_TurnersAreGrantedHomedAndCleared_home :
    base.takes .plant (ask []) = true ∧ base.canHome = true ∧ (base.turner 0).state = .unhomed ∧
    (base.turner 1).state = .unhomed ∧ base.roomFor 12 cMOVETO .sequencer = true ∧
    base.roomFor 13 cMOVETO .sequencer = true ∧ base.filter.queue.length < 15 ∧
    ((base.turnerCfg 0).map (·.drive), (base.turnerCfg 1).map (·.drive)) = (some 12, some 13) := by decide +kernel

theorem witness_TurnersAreGrantedHomedAndCleared_clear :
    let s (p : Option Nat) := base.onTurner 0 fun x => { x with state := .fault, position := p, faultReport := some 3 }
    (s (some 2)).takes .plant (ask [0]) = true ∧ ((s (some 2)).turner 0).faultReport = some (3 : Int) ∧
    (s (some 2)).noScan = true ∧ (∀ c, ((s (some 2)).comp c).demand = none) ∧ (s (some 2)).keepsOrder 0 3 = true ∧
    ((s none).turner 0).position = none := by decide +kernel

theorem witness_TransferRequestJoinsTheList :
    let s := busyRun.onSteep 0 fun x => { x with phase := .castWait }
    s.takes .plant (ask [0, 0, 1, 0]) = true ∧ readAll readTransferReq [0, 0, 1, 0] = some (.cast, 0, none) ∧
    s.awaitsTransfer 0 = true ∧ s.hasRequest 0 = false ∧ busyRun.awaitsTransfer 0 = false := by decide +kernel

theorem witness_ResumeAndAbortActOnTheTransfer :
    let s := runs (fun r => { r with out := some { index := 0, late := false, massAt := 0, sampleAt := none, serial := 1 } }) .stalled
    s.takes .plant (ask []) = true ∧ (s.tables.transfer.run).isSome = true ∧
    s.usableRole (.vessel 0) (emptyRole 0) = none ∧ s.roomFor 14 cSTOP .override = true ∧
    (s.transfer.running.any fun r => decide (r.state = .stalled) && r.out.isSome) = true := by decide +kernel

theorem witness_ReadsAnswerAndChangeNothing :
    base.takes .plant (ask [1, 3, 0, 0]) = true ∧ entriesOf 1 = some 4 ∧
    ((auto 0 .steeping).batchOf 7).isSome = true ∧ base.takes .excise (askExcise [0, 0, 0, 2]) = true ∧
    base.excise.holds 2 = true ∧ (base.excise.slots.get (slotOf 2)).isSome = true ∧
    base.takes .plant (ask []) = true := by decide +kernel

theorem witness_ExciseRequestsMoveLockAndExport_lock :
    let bad (n : Nat) := base.onExcise fun e => { e with failed := n }
    base.takes .excise (askExcise [0, 0, 0, 0]) = true ∧ base.excise.lock = .locked ∧ 1 ≤ base.excise.avail ∧
    base.excise.now.next < max32 ∧ ofBytes [0, 0, 0, 0] = base.excise.now.tables.code ∧
    (bad 1).excise.failed + 1 < 3 ∧ 3 ≤ (bad 2).excise.failed + 1 ∧ ofBytes [0, 0, 0, 9] ≠ base.excise.now.tables.code ∧
    unlocked.takes .excise (askExcise []) = true ∧ base.takes .plant (ask []) = true := by decide +kernel

theorem witness_ExciseRequestsMoveLockAndExport_export :
    base.takes .excise (askExcise [0, 0, 0, 2]) = true ∧ base.excise.storeFault = false ∧
    (base.excise.now.exported ≤ ofBytes [0, 0, 0, 2] ∧ ofBytes [0, 0, 0, 2] < base.excise.now.next) ∧
    base.excise.now.next ≤ ofBytes [0, 0, 0, 3] ∧ base.excise.now.restart = none ∧ base.excise.pendingLock = none ∧
    base.noScan = true ∧ base.takes .plant (ask [0, 0, 0, 2]) = true ∧
    (base.onExcise fun e => { e with storeFault := true }).takes .excise (askExcise [0, 0, 0, 2]) = true := by decide +kernel

theorem witness_ExciseCommitIsRegistered :
    let s := (unlocked.onExcise fun e => { e with idle := some 5, staged := { e.staged with castDraws := 2, terminal := 120 } })
    let c := s.onExcise fun e => { e with staged := { e.staged with terminal := 1 } }
    let f := s.onExcise fun e => { e with now := { e.now with reservation := 512 } }
    base.takes .plant (ask [11]) = true ∧ base.takes .excise (askExcise [11]) = true ∧ base.excise.lock ≠ .unlocked ∧
    (∀ id ∈ [11, 12, 13, 14], s.takes .excise (askExcise [id]) = true) ∧ s.excise.lock = .unlocked ∧
    4 ≤ s.excise.avail ∧ s.excise.now.next + 4 < max32 ∧ s.noScan = true ∧
    c.takes .excise (askExcise [13]) = true ∧ c.plantAddr = 1 ∧ f.excise.avail < 1 ∧ f.excise.lock = .unlocked ∧
    s.excise.staged.ok 11 = true ∧ s.excise.staged.ok 12 = true ∧ s.excise.staged.ok 13 = true ∧
    s.excise.staged.ok 14 = true ∧ ((s.onExcise fun e => { e with staged := { e.staged with castDraws := 9 } }).takes .excise
      (askExcise [11]) = true) := by
  decide +kernel

theorem witness_PlantTimeIsSetAndCounts :
    (base.takes .plant (ask [1, 0, 1, 81, 127]) = true ∧ 1 * 65536 + 81 * 256 + 127 = 86399) ∧
    base.takes .excise (askExcise [1, 0, 1, 81, 127]) = true ∧ 86399 < 1 * 65536 + 81 * 256 + 128 ∧
    marked.work = [] ∧ marked.field.busy = true ∧
    ({ day := 65535, second := 86399, tenth := 9 } : PlantTime).tick = { day := 0, second := 0, tenth := 0 } := by
  decide +kernel

theorem witness_PartRequestsActOnThePart : base.takes .plant (ask []) = true := by decide +kernel

theorem witness_RequestsAreTurnedAway :
    base.takes .plant (ask []) = true ∧ namesRequest [9, 1] = false ∧ namesRequest [7] = false ∧ namesRequest [] = false ∧
    ((base.onMgmt fun m => { m with stopped := true }).mgmt.stopped = true) ∧
    ((base.onTrunk fun t => { t with held := 4 }).trunk.placesUsed = 4) ∧
    (base.terminalAddr = 126 ∧ base.plantAddr ≠ 9 ∧ base.terminalAddr ≠ 9) ∧
    ((base.onMgmt fun m => { m with excise := some { src := 126, seq := 0, cls := 6, code := 4 } }).mgmt.excise.isSome = true)
      := by decide +kernel

end Sys2Proof.Tests
end

section
/-! PROOFS. BATCH OPEN and BATCH RELEASE (R5, R19). -/

namespace Sys2Proof.Machine

/-! ## Requests that are answered at once -/

/-- A request that is taken, and answered in a state with no event under way: what its command leaves. -/
theorem State.requestArrives_settles {s t : State} {o : Originator} {r : Request} (h : s.takes o r = true)
    {cls code : Nat} {hd : Handler} {a : Answered} (hh : hd o r (s.received o) = (t, some a)) (ht : t.work = []) :
    (s.requestArrives cls code hd r).settle =
      t.formReply r.src.toNat r.seq.toNat cls code a.status a.detail a.result false := by
  rw [State.requestArrives_answers h hh, State.settle_of_idle (by simp [ht])]

/-- A request that is answered with a status alone, by a handler that changes nothing. -/
theorem State.requestArrives_says {s : State} {o : Originator} {r : Request} (h : s.takes o r = true)
    {cls code : Nat} {hd : Handler} {st : Status} (hh : hd o r (s.received o) = (s.received o).says st) :
    (s.requestArrives cls code hd r).settle = (s.received o).replies r cls code st :=
  State.requestArrives_settles h hh (by simpa using (State.takes_iff.1 h).1)

/-! ## BATCH OPEN (R5) -/

theorem readNat_one_bind {α : Type} (lo hi : Nat) (x : Byte) (l : List Byte) (f : Nat × List Byte → Option α) :
    (readNat 1 lo hi (x :: l) >>= f) = if lo ≤ x.toNat ∧ x.toNat ≤ hi then f (x.toNat, l) else none := by
  by_cases h : lo ≤ x.toNat ∧ x.toNat ≤ hi <;> simp [readNat, ofBytes, h]

theorem readNat_two_bind {α : Type} (lo hi : Nat) (x y : Byte) (l : List Byte) (f : Nat × List Byte → Option α) :
    (readNat 2 lo hi (x :: y :: l) >>= f) =
      if lo ≤ x.toNat * 256 + y.toNat ∧ x.toNat * 256 + y.toNat ≤ hi then f (x.toNat * 256 + y.toNat, l) else none := by
  by_cases h : lo ≤ x.toNat * 256 + y.toNat ∧ x.toNat * 256 + y.toNat ≤ hi <;> simp [readNat, ofBytes, h]

/-- The fields of BATCH OPEN are in their ranges. -/
abbrev openInRange (id v p g k m0 : Nat) : Prop := 1 ≤ id ∧ v ≤ 3 ∧ p ≤ 7 ∧ g ≤ 7 ∧ k ≤ 3 ∧ 500 ≤ m0 ∧ m0 ≤ 4000

/-- The OPENED record that BATCH OPEN makes. -/
def openedRecord (id v p g k m0 : Nat) : Batch :=
  { id, state := .opened, vessel := v, steepProg := p, germProg := g, kilnProg := k, m0 }

section
variable (a b v p g k c d : Byte)

/-- The arguments of BATCH OPEN, read field by field: the range tests of the fields are those of the whole. -/
theorem readAll_readOpen : readAll readOpen [a, b, v, p, g, k, c, d] =
    if openInRange (a.toNat * 256 + b.toNat) v.toNat p.toNat g.toNat k.toNat (c.toNat * 256 + d.toNat) then
      some (openedRecord (a.toNat * 256 + b.toNat) v.toNat p.toNat g.toNat k.toNat (c.toNat * 256 + d.toNat))
    else none := by
  have hid : a.toNat * 256 + b.toNat ≤ 65535 := by have := a.isLt; have := b.isLt; omega
  have hread : readOpen [a, b, v, p, g, k, c, d] =
      if openInRange (a.toNat * 256 + b.toNat) v.toNat p.toNat g.toNat k.toNat (c.toNat * 256 + d.toNat) then
        some (openedRecord (a.toNat * 256 + b.toNat) v.toNat p.toNat g.toNat k.toNat (c.toNat * 256 + d.toNat), [])
      else none := by
    simp only [readOpen, readNat_one_bind, readNat_two_bind, openInRange, ite_and, hid, if_true, Nat.zero_le,
      openedRecord]
  unfold readAll
  rw [hread]
  split_ifs <;> rfl

end

/-! ### The order of the checks -/

section
variable {s : State} {r : Request} {x : Batch} (hlen : r.args.length = 8)
include hlen

theorem batchOpen_excise : batchOpen .excise r s = s.says .notPermitted := by
  simp [batchOpen, hlen]

theorem batchOpen_out_of_range (hr : readAll readOpen r.args = none) : batchOpen .plant r s = s.says .badArgument := by
  simp [batchOpen, hlen, hr]

variable (hr : readAll readOpen r.args = some x)
include hr

theorem batchOpen_known (hid : (s.batchOf x.id).isSome = true) : batchOpen .plant r s = s.says .badArgument := by
  simp [batchOpen, hlen, hr, hid]

variable (hid : s.batchOf x.id = none)
include hid

theorem batchOpen_full (hn : s.freeSlot = none) : batchOpen .plant r s = s.says .noRoom := by
  simp [batchOpen, hlen, hr, hid, hn]

variable {n : Nat} {i : Fin 4} (hn : s.freeSlot = some n) (hi : x.vessel = i.val)
include hn hi

theorem batchOpen_steep_taken (hs : (s.batchAt (steepNo i)).isSome = true ∨ s.steepMode i = .off) :
    batchOpen .plant r s = s.says .wrongState := by
  simp [batchOpen, hlen, hr, hid, hn, Batch.steepOf, hi, hs]

theorem batchOpen_accepted (hb : s.batchAt (steepNo i) = none) (hm : s.steepMode i ≠ .off) :
    batchOpen .plant r s = (s.onBatch fun u => { u with slots := u.slots.put n x }, some { status := .ok, detail := n }) := by
  simp [batchOpen, hlen, hr, hid, hn, Batch.steepOf, hi, hb, hm]

end

/-- Settles O45: the fields read, then the checks in their order. -/
theorem batchOpenMakesARecord : Obligations.BatchOpenMakesARecord := by
  unfold Obligations.BatchOpenMakesARecord
  intro s r a b v p g k c d hargs id m0 say fields
  have hlen : r.args.length = 8 := by simp [hargs]
  have hread : readAll readOpen r.args =
      if fields then some (openedRecord id v.toNat p.toNat g.toNat k.toNat m0) else none := by
    rw [hargs]
    exact readAll_readOpen a b v p g k c d
  refine ⟨fun ht => ?_, fun ht => ⟨fun hf => ?_, fun hf hid => ?_, fun hf hid hn => ?_, fun i n hf hv hid hn => ⟨?_, ?_⟩⟩⟩
  · exact congrArg Host.Outcome.next (State.requestArrives_says ht (batchOpen_excise hlen))
  · exact congrArg Host.Outcome.next (State.requestArrives_says ht (batchOpen_out_of_range hlen (hread.trans (if_neg hf))))
  · exact congrArg Host.Outcome.next (State.requestArrives_says ht (batchOpen_known hlen (hread.trans (if_pos hf)) hid))
  · exact congrArg Host.Outcome.next (State.requestArrives_says ht (batchOpen_full hlen (hread.trans (if_pos hf)) hid hn))
  · intro hs
    exact congrArg Host.Outcome.next
      (State.requestArrives_says ht (batchOpen_steep_taken hlen (hread.trans (if_pos hf)) hid hn hv hs))
  · intro hb hm
    have hopen := batchOpen_accepted (s := s.received .plant) hlen (hread.trans (if_pos hf)) hid hn hv hb hm
    rw [← hv]
    exact congrArg Host.Outcome.next (State.requestArrives_settles ht hopen (State.takes_iff.1 ht).1)

/-! ## BATCH RELEASE (R19) -/

section
variable {s : State} {r : Request} {n : Nat} {b : Batch} (hlen : r.args.length = 2)
include hlen

theorem batchRelease_excise : batchRelease .excise r s = s.says .notPermitted := by
  simp [batchRelease, onBatchId, hlen]

theorem batchRelease_unknown (hb : s.batchOf (ofBytes r.args) = none) :
    batchRelease .plant r s = s.says .badArgument := by
  simp [batchRelease, onBatchId, hlen, hb]

variable (hb : s.batchOf (ofBytes r.args) = some (n, b))
include hb

theorem batchRelease_in_use (hd : b.state ≠ .done) (ha : b.state ≠ .abandoned) :
    batchRelease .plant r s = s.says .wrongState := by
  simp [batchRelease, onBatchId, hlen, hb, hd, ha]

theorem batchRelease_accepted (hs : b.state = .done ∨ b.state = .abandoned) :
    batchRelease .plant r s = (s.onBatch fun u => { u with slots := u.slots.del n }).done := by
  simp [batchRelease, onBatchId, hlen, hb, hs]

end

/-- Settles O50, by the record that the request names and its state. -/
theorem releaseFreesTheSlot : Obligations.ReleaseFreesTheSlot := by
  unfold Obligations.ReleaseFreesTheSlot
  intro s r hlen say
  refine ⟨fun ht => ?_, fun ht => ⟨fun hb => ?_, fun n b hb => ⟨fun hd ha => ?_, fun hs => ?_⟩⟩⟩
  · exact congrArg Host.Outcome.next (State.requestArrives_says ht (batchRelease_excise hlen))
  · exact congrArg Host.Outcome.next (State.requestArrives_says ht (batchRelease_unknown hlen hb))
  · exact congrArg Host.Outcome.next (State.requestArrives_says ht (batchRelease_in_use hlen hb hd ha))
  · have hrel := batchRelease_accepted (s := s.received .plant) hlen hb hs
    exact congrArg Host.Outcome.next (State.requestArrives_settles ht hrel (State.takes_iff.1 ht).1)

end Sys2Proof.Machine
end

section
/-! PROOFS. The drying attempts of an air-off humidity delivery (R12 to R16). -/

namespace Sys2Proof.Machine

/-! ## Entries, slots and integrators that are written twice -/

/-- Of two writes to one entry of a store the later one stays. -/
theorem Tbl.put_put {α : Type} (t : Tbl α) (n : Nat) (a b : α) : (t.put n a).put n b = t.put n b := by
  induction t with
  | nil => simp [Tbl.put]
  | cons e t ih =>
    obtain ⟨k, c⟩ := e
    by_cases hlt : n < k
    · simp [Tbl.put, hlt]
    · by_cases heq : n = k
      · simp [Tbl.put, heq]
      · simp [Tbl.put, hlt, heq, ih]

theorem Tbl.upd_upd {α : Type} (t : Tbl α) (n : Nat) (f g : α → α) :
    (t.upd n f).upd n g = t.upd n fun a => g (f a) := by
  unfold Tbl.upd
  cases h : t.get n with
  | none => simp [h]
  | some a => simp [Tbl.put_put]

theorem State.onSlot_onSlot (s : State) (n : Nat) (f g : Batch → Batch) :
    (s.onSlot n f).onSlot n g = s.onSlot n fun b => g (f b) := by
  simp [State.onSlot, State.onBatch, Tbl.upd_upd]

/-- A vessel with integrator i: what an update of the vessel's integrator leaves, written out. -/
theorem State.onInteg_eq {v : Fin 12} {i : Fin 8} (hv : integNo v = some i) (s : State) (f : Integrator → Integrator) :
    s.onInteg v f = s.onBatch fun b => { b with integ := b.integ.set i (f (bank s.batch.integ i)) } := by
  simp [State.onInteg, hv, State.onBatch, onBank, bank]

/-- Two updates of a vessel's integrator, with one of a batch record between them. -/
theorem State.onInteg_onSlot_onInteg (s : State) (v : Fin 12) (n : Nat) (f g : Integrator → Integrator)
    (h : Batch → Batch) :
    ((s.onInteg v f).onSlot n h).onInteg v g = (s.onSlot n h).onInteg v fun x => g (f x) := by
  cases hv : integNo v with
  | none => simp [State.onInteg, hv]
  | some i => simp [State.onInteg, hv, State.onSlot, State.onBatch, onBank]

@[simp] theorem State.onSlot_usableRole (s : State) (n : Nat) (f : Batch → Batch) (o : Owner) (r : Role) :
    (s.onSlot n f).usableRole o r = s.usableRole o r := rfl

@[simp] theorem State.onInteg_usableRole (s : State) (v : Fin 12) (f : Integrator → Integrator) (o : Owner) (r : Role) :
    (s.onInteg v f).usableRole o r = s.usableRole o r := by
  unfold State.onInteg
  split <;> rfl

theorem integNo_of_val {v : Fin 12} {i : Fin 8} (h : v.val = i.val + 4) : integNo v = some i := by
  simp [integNo, h]

/-! ## The attempt (R13 to R15) -/

/-- The time a step is computed over: the elapsed tenths held to 1..600 (R14). -/
def heldTime (d : Nat) : Nat := if 600 < d then 600 else if d = 0 then 1 else d

/-- A later attempt after more than 600 tenths costs its batch a gap (R14). -/
def Batch.lateGap (d : Nat) (b : Batch) : Batch := if 600 < d then { b with gaps := min max16 (b.gaps + 1) } else b

theorem stepTime_eq {now last d : Nat} (h : elapsed now last = d) :
    stepTime now last = (heldTime d, decide (600 < d)) := by
  unfold stepTime heldTime
  rw [h]
  by_cases hlong : 600 < d
  · simp [hlong]
  · by_cases hzero : d = 0 <;> simp [hlong, hzero]

/-- A name for stepTime that does not unfold: the kernel would compute its modulus 2^32 in unary where it compares two
forms of a state that branches on it. -/
theorem exists_eq_stepTime {now last d : Nat} (h : elapsed now last = d) :
    ∃ f : Nat → Nat → Nat × Bool, f = stepTime ∧ f now last = (heldTime d, decide (600 < d)) :=
  ⟨stepTime, rfl, stepTime_eq h⟩

section
variable {s : State} {v : Fin 12}

/-- With no batch drying in the vessel there is no attempt (R13). -/
theorem State.dryAttempt_of_no_batch (hd : s.dryingAt v = none) (x : Int) : s.dryAttempt v x = s := by
  simp [State.dryAttempt, hd]

variable {n : Nat} {b : Batch} {g : Integrator} (hd : s.dryingAt v = some (n, b)) (hg : s.integ v = some g)
include hd hg

/-- The first attempt records the process time and ends (R14). -/
theorem State.dryAttempt_first (hl : g.last = none) (x : Int) :
    s.dryAttempt v x = s.onInteg v fun y => { y with last := some s.timeNow } := by
  simp [State.dryAttempt, hd, hg, hl]

variable {t d : Nat} (hl : g.last = some t) (he : elapsed s.timeNow t = d)
include hl he

/-- A later attempt with both readings usable computes its step (R14 to R16). -/
theorem State.dryAttempt_computed {on q : Int} (hon : s.usableRole (.vessel v) .airOnHumidity = some on)
    (hq : s.usableRole (.vessel v) .fanFlow = some q) (x : Int) :
    s.dryAttempt v x =
      (s.onSlot n fun y => (y.lateGap d).dry q (max 0 (x - on)) (heldTime d)).onInteg v fun y =>
        { y with last := some s.timeNow, steps := min max16 (y.steps + 1) } := by
  obtain ⟨f, hf, hst⟩ := exists_eq_stepTime he
  unfold State.dryAttempt
  rw [← hf]
  simp only [hd, hg, hl, hst]
  by_cases hlong : 600 < d <;>
    simp [hlong, hon, hq, Batch.lateGap, satAdd, State.onSlot_onSlot, State.onInteg_onSlot_onInteg]

/-- A later attempt without both readings is skipped (R15). -/
theorem State.dryAttempt_skipped
    (hu : s.usableRole (.vessel v) .airOnHumidity = none ∨ s.usableRole (.vessel v) .fanFlow = none) (x : Int) :
    s.dryAttempt v x =
      (s.onSlot n fun y => { y.lateGap d with gaps := min max16 ((y.lateGap d).gaps + 1) }).onInteg v fun y =>
        { y with last := some s.timeNow, skipped := min max16 (y.skipped + 1) } := by
  obtain ⟨f, hf, hst⟩ := exists_eq_stepTime he
  unfold State.dryAttempt
  rw [← hf]
  simp only [hd, hg, hl, hst]
  by_cases hlong : 600 < d <;> rcases hu with hu | hu <;>
    simp [hlong, hu, Batch.lateGap, satAdd, State.onSlot_onSlot, State.onInteg_onSlot_onInteg]

end

/-! ## The delivery (R13, R17, R29) -/

section
variable {s : State} {v : Fin 12} {n : Nat} {e : MpEntry}

theorem lt_of_vesselIs_steep {i : Fin 4} (h : vesselIs v = .steep i) : v.val < 4 := by
  revert v i; decide

theorem le_of_vesselIs_kiln {k : Fin 2} (h : vesselIs v = .kiln k) : 10 ≤ v.val := by
  revert v k; decide

theorem emptyRole_ne_airOffHumidity (v : Fin 12) : Role.airOffHumidity ≠ emptyRole v := by
  unfold emptyRole
  split <;> decide

/-- An air-off humidity delivery from the first MP of its role to a compartment or kiln. -/
theorem State.deliver_airOffHumidity (hv : 4 ≤ v.val) (ho : e.owner = .vessel v) (hr : e.role = .airOffHumidity)
    (hm : s.mpOf (.vessel v) .airOffHumidity = some n) (x : MpValue) : s.deliver n e x = s.humidity v x.val := by
  have hrun (u : State) : u.runEmptyTest v .airOffHumidity x.val = u := by
    unfold State.runEmptyTest
    split
    · simp [emptyRole_ne_airOffHumidity v]
    · rfl
  have hves : s.deliverVessel v .airOffHumidity x.val = s.humidity v x.val := by
    unfold State.deliverVessel
    split
    · next i hi => exact absurd (lt_of_vesselIs_steep hi) (by omega)
    · simp [Role.bed]
    · rfl
  simp [State.deliver, ho, hr, hm, hrun, hves]

/-- Where no step is computed a kiln is handed no moisture (R15). -/
theorem State.humidity_of_not_computes (h : s.dryComputes v = false) (x : Int) : s.humidity v x = s.dryAttempt v x := by
  unfold State.humidity
  split <;> simp [h]

/-- A compartment's delivery is the attempt alone. -/
theorem State.humidity_of_lt (h : v.val < 10) (x : Int) : s.humidity v x = s.dryAttempt v x := by
  unfold State.humidity
  split
  · next k hk => exact absurd (le_of_vesselIs_kiln hk) (by omega)
  · rfl
  · rfl

/-- A kiln is handed the moisture of a computed step (R17). -/
theorem State.humidity_kiln {k : Fin 2} (h : s.dryComputes (kilnNo k) = true) (x : Int) :
    s.humidity (kilnNo k) x = (s.dryAttempt (kilnNo k) x).kilnMoisture k := by
  simp [State.humidity, h]

end

/-- Settles O48, by the attempt's cases: no batch, the first attempt, a computed step, a skipped one. -/
theorem humidityAttemptsADryingStep : Obligations.HumidityAttemptsADryingStep := by
  unfold Obligations.HumidityAttemptsADryingStep
  intro s n e h v i hv ho hr hm g record
  have hdel : s.deliver n e h = s.humidity v h.val := State.deliver_airOffHumidity (by omega) ho hr hm h
  have hno := integNo_of_val hv
  have hg : s.integ v = some g := by simp [State.integ, hno, g]
  refine ⟨fun hd => ?_, fun m b hd => ⟨fun hl => ?_, fun t hl => ?_⟩⟩
  · rw [hdel, State.humidity_of_not_computes (by simp [State.dryComputes, hd]), State.dryAttempt_of_no_batch hd]
  · rw [hdel, State.humidity_of_not_computes (by simp [State.dryComputes, hg, hl]), State.dryAttempt_first hd hg hl,
      State.onInteg_eq hno]
  · intro d dt gap
    have he : elapsed s.timeNow t = d := rfl
    have hgap (y : Batch) : y.lateGap d = gap y := rfl
    refine ⟨fun on q hon hq => ?_, fun hu => ?_⟩
    · intro dried
      have hdry : s.dryAttempt v h.val = dried := by
        rw [State.dryAttempt_computed hd hg hl he hon hq, State.onInteg_eq hno]
        rfl
      refine ⟨fun hlt => ?_, fun k hk => ?_⟩
      · rw [hdel, State.humidity_of_lt hlt, hdry]
      · subst hk
        rw [hdel, State.humidity_kiln (by simp [State.dryComputes, hd, hg, hl, hon, hq]), hdry]
    · have hc : s.dryComputes v = false := by
        rcases hu with hu | hu <;> simp [State.dryComputes, hu]
      rw [hdel, State.humidity_of_not_computes hc, State.dryAttempt_skipped hd hg hl he hu, State.onInteg_eq hno]
      simp only [hgap]
      rfl

end Sys2Proof.Machine
end

section
/-! PROOFS. The bounds of the part (R101, R158, R189): what it is to keep them, and the updates, notices and replies that do. -/

namespace Sys2Proof.Machine

-- One declaration after the other: side by side, their stacks are more than the check's bound on memory.
set_option Elab.async false

/-- Each of the three bounds that holds of s holds of t. Every operation of the part is shown to lead from a state to one
that keeps its bounds, in the form that a further operation after others keeps them still. -/
structure State.Keeps (s t : State) : Prop where
  heat : s.heatOk → t.heatOk
  queue : s.queueOk → t.queueOk
  notices : s.noticesOk → t.noticesOk

theorem State.Keeps.refl (s : State) : s.Keeps s := ⟨id, id, id⟩

theorem State.Keeps.trans {s t u : State} (h : s.Keeps t) (h' : t.Keeps u) : s.Keeps u :=
  ⟨h'.heat ∘ h.heat, h'.queue ∘ h.queue, h'.notices ∘ h.notices⟩

/-- Operations that keep the bounds one by one keep them over a list. -/
theorem State.Keeps.foldl {α : Type} {a s : State} {f : State → α → State} (hf : ∀ s x, a.Keeps s → a.Keeps (f s x))
    (h : a.Keeps s) (l : List α) : a.Keeps (l.foldl f s) := by
  induction l generalizing s with
  | nil => exact h
  | cons x l ih => exact ih (hf s x h)

/-- Both branches of a condition keep the bounds. -/
theorem State.Keeps.ite {a s t : State} {c : Prop} [Decidable c] (h : a.Keeps s) (h' : a.Keeps t) :
    a.Keeps (if c then s else t) := by
  split
  · exact h
  · exact h'

/-! ## What each bound speaks of -/

theorem State.heatOk_of_eq {s t : State} (hk : ∀ k, (t.kiln k).grant = (s.kiln k).grant)
    (hc : ∀ k, (t.kiln k).cap = (s.kiln k).cap) (hb : t.budget = s.budget) (h : s.heatOk) : t.heatOk := by
  obtain ⟨hsum, hcap⟩ := h
  exact ⟨by rw [hk, hk, hb]; exact hsum, fun k => by rw [hc, hk]; exact hcap k⟩

theorem State.queueOk_of_eq {s t : State} (hq : t.filter.queue = s.filter.queue) (h : s.queueOk) : t.queueOk := by
  unfold State.queueOk Filter.plantCount at *
  rwa [hq]

theorem State.noticesOk_of_eq {s t : State} (hn : t.notices = s.notices) (h : s.noticesOk) : t.noticesOk := by
  unfold State.noticesOk at *
  rwa [hn]

/-! ## Updates of the blocks -/

namespace State.Keeps
variable {a s t : State}

theorem onClock (h : a.Keeps s) {f : Clock → Clock} : a.Keeps (s.onClock f) := ⟨h.heat, h.queue, h.notices⟩
theorem onTrunk (h : a.Keeps s) {f : Trunk → Trunk} : a.Keeps (s.onTrunk f) := ⟨h.heat, h.queue, h.notices⟩
theorem onField (h : a.Keeps s) {f : FieldLine → FieldLine} : a.Keeps (s.onField f) := ⟨h.heat, h.queue, h.notices⟩
theorem onIntake (h : a.Keeps s) {f : Intake → Intake} : a.Keeps (s.onIntake f) := ⟨h.heat, h.queue, h.notices⟩
theorem onStaged (h : a.Keeps s) {f : Tables → Tables} : a.Keeps (s.onStaged f) := ⟨h.heat, h.queue, h.notices⟩
theorem onVessel (h : a.Keeps s) {v : Fin 12} {f : VesselRec → VesselRec} : a.Keeps (s.onVessel v f) :=
  ⟨h.heat, h.queue, h.notices⟩
theorem onSteep (h : a.Keeps s) {i : Fin 4} {f : Steep → Steep} : a.Keeps (s.onSteep i f) := ⟨h.heat, h.queue, h.notices⟩
theorem onComp (h : a.Keeps s) {c : Fin 6} {f : Comp → Comp} : a.Keeps (s.onComp c f) := ⟨h.heat, h.queue, h.notices⟩
theorem onTurner (h : a.Keeps s) {t : Fin 2} {f : Turner → Turner} : a.Keeps (s.onTurner t f) :=
  ⟨h.heat, h.queue, h.notices⟩
theorem onBatch (h : a.Keeps s) {f : BatchUnit → BatchUnit} : a.Keeps (s.onBatch f) := ⟨h.heat, h.queue, h.notices⟩
theorem onSlot (h : a.Keeps s) {n : Nat} {f : Batch → Batch} : a.Keeps (s.onSlot n f) := h.onBatch
theorem onLive (h : a.Keeps s) {n : Nat} {f : MpLive → MpLive} : a.Keeps (s.onLive n f) := h.onIntake
theorem onTransfer (h : a.Keeps s) {f : TransferRun → TransferRun} : a.Keeps (s.onTransfer f) :=
  ⟨h.heat, h.queue, h.notices⟩
theorem onRun (h : a.Keeps s) {f : Running → Running} : a.Keeps (s.onRun f) := h.onTransfer
theorem onExcise (h : a.Keeps s) {f : Excise → Excise} : a.Keeps (s.onExcise f) := ⟨h.heat, h.queue, h.notices⟩
theorem onMgmt (h : a.Keeps s) {f : Mgmt → Mgmt} : a.Keeps (s.onMgmt f) := ⟨h.heat, h.queue, h.notices⟩
theorem emit (h : a.Keeps s) {e : Event} : a.Keeps (s.emit e) := ⟨h.heat, h.queue, h.notices⟩
theorem withWork (h : a.Keeps s) {w : List Event} : a.Keeps { s with work := w } := ⟨h.heat, h.queue, h.notices⟩
theorem withDraws (h : a.Keeps s) {n : Nat} : a.Keeps { s with draws := n } := ⟨h.heat, h.queue, h.notices⟩

/-- A change of the filter that leaves the queue. -/
theorem onFilter (h : a.Keeps s) {f : Filter → Filter} (hf : (f s.filter).queue = s.filter.queue := by rfl) :
    a.Keeps (s.onFilter f) :=
  ⟨h.heat, fun ha => State.queueOk_of_eq hf (h.queue ha), h.notices⟩

/-- A change of a kiln that leaves its grant and its cap. -/
theorem onKiln (h : a.Keeps s) {k : Fin 2} {f : Kiln → Kiln} (hg : ∀ x, (f x).grant = x.grant := by intro; rfl)
    (hc : ∀ x, (f x).cap = x.cap := by intro; rfl) : a.Keeps (s.onKiln k f) := by
  refine ⟨fun ha => State.heatOk_of_eq (s := s) (fun j => ?_) (fun j => ?_) rfl (h.heat ha), h.queue, h.notices⟩ <;>
    · unfold State.kiln State.onKiln
      rw [bank_onBank]
      split <;> simp [hg, hc]

theorem onInteg (h : a.Keeps s) {v : Fin 12} {f : Integrator → Integrator} : a.Keeps (s.onInteg v f) := by
  unfold State.onInteg
  split
  · exact h.onBatch
  · exact h

end State.Keeps

/-! ## Notices (R189) -/

theorem earliest_eq_none {l : List Notice} (h : earliest l = none) : l = [] := by
  cases l with
  | nil => rfl
  | cons m l =>
    unfold earliest at h
    split at h
    · split at h <;> cases h
    · cases h

theorem setMark_keys {l : List Notice} {n : Notice} (h : (l.map Notice.key).Nodup) :
    ((setMark l n).map Notice.key).Nodup := by
  unfold setMark
  split
  · rw [List.map_map]
    convert h using 2
    funext m
    simp only [Function.comp]
    split <;> rfl
  · next hn =>
    rw [List.map_append, List.nodup_append]
    refine ⟨h, by simp, ?_⟩
    simp only [List.mem_map, List.map_cons, List.map_nil, List.mem_singleton, forall_exists_index, and_imp]
    rintro _ m hm rfl _ rfl heq
    simp only [Notice.key, Prod.mk.injEq] at heq
    exact hn (List.any_eq_true.2 ⟨m, hm, by simpa using heq⟩)

/-- A queue from which a notice has just gone takes its earliest mark, if it has one, and is full again. -/
theorem State.promoteMark_noticesOk {s : State} (hq : s.notices.queue.length ≤ 31)
    (hm : s.notices.marks ≠ [] → s.notices.queue.length = 31) (hn : (s.notices.marks.map Notice.key).Nodup) :
    s.promoteMark.noticesOk := by
  unfold State.promoteMark
  split
  · next m hm' =>
    have hne : s.notices.marks ≠ [] := by
      intro he
      rw [he] at hm'
      cases hm'
    have := hm hne
    refine ⟨?_, fun _ => ?_, (List.erase_sublist.map _).nodup hn⟩ <;> simp [State.onNotices] <;> omega
  · next hnone =>
    have he := earliest_eq_none hnone
    exact ⟨by omega, fun h => absurd he h, hn⟩

theorem State.takeTelegram_noticesOk {s : State} (h : s.noticesOk) : s.takeTelegram.noticesOk := by
  obtain ⟨hq, hm, hn⟩ := h
  unfold State.takeTelegram
  split
  · exact ⟨hq, hm, hn⟩
  · exact ⟨hq, hm, hn⟩
  · next ns _ _ hqueue =>
    rw [hqueue] at hq hm
    refine State.noticesOk_of_eq (s := (s.onNotices fun q => { q with queue := ns }).promoteMark) rfl ?_
    exact State.promoteMark_noticesOk (Nat.le_of_lt_succ (by simpa using hq)) (by simpa using hm) hn
  · exact ⟨hq, hm, hn⟩
  · exact ⟨hq, hm, hn⟩

namespace State.Keeps
variable {a s : State}

/-- An operation that changes the trunk and the notices alone keeps the bounds of heat and of commands. -/
theorem of_sameBut {t : State} (h : a.Keeps s) (hs : State.SameBut s t) (hn : s.noticesOk → t.noticesOk) : a.Keeps t :=
  h.trans
    { heat := State.heatOk_of_eq (fun k => by rw [State.kiln, hs.kilns]; rfl) (fun k => by rw [State.kiln, hs.kilns]; rfl)
        (by rw [State.budget, hs.tables]; rfl)
      queue := State.queueOk_of_eq (by rw [hs.filter])
      notices := hn }

theorem kick (h : a.Keeps s) : a.Keeps s.kick := by
  refine h.of_sameBut (State.kick_same s) fun hn => ?_
  unfold State.kick
  split
  · exact State.takeTelegram_noticesOk hn
  · exact hn

theorem post (h : a.Keeps s) {k : NoticeKind} {c : SourceClass} {i n : Nat} {v : Int} : a.Keeps (s.post k c i n v) := by
  unfold State.post
  dsimp only
  split
  · next hlt =>
    refine Keeps.kick (h.of_sameBut (State.SameBut.onNotices _ _) fun ⟨_, hm, hn⟩ => ?_)
    have he : s.notices.marks = [] := by
      by_contra hne
      have := hm hne
      omega
    exact ⟨by simp [State.onNotices]; omega, fun hne => absurd he hne, hn⟩
  · next hge =>
    refine h.of_sameBut (State.SameBut.onNotices _ _) fun ⟨hq, _, hn⟩ => ⟨hq, fun _ => ?_, setMark_keys hn⟩
    simp only [State.onNotices]
    omega

theorem postVessel (h : a.Keeps s) {k : NoticeKind} {v : Fin 12} {n : Nat} {x : Int} : a.Keeps (s.postVessel k v n x) :=
  h.post
theorem postExcise (h : a.Keeps s) {n : Nat} {v : Int} : a.Keeps (s.postExcise n v) := h.post
theorem postFull (h : a.Keeps s) : a.Keeps s.postFull := h.postExcise
theorem postPhase (h : a.Keeps s) {v : Fin 12} {n : Nat} : a.Keeps (s.postPhase v n) := h.postVessel
theorem postFault (h : a.Keeps s) {v : Fin 12} {c : FaultCode} : a.Keeps (s.postFault v c) := h.postVessel
theorem postLimit (h : a.Keeps s) {n : Nat} {l : Level} {v : Int} : a.Keeps (s.postLimit n l v) := h.post
theorem postTransfer (h : a.Keeps s) {v : Fin 12} {st : TransferState} {x : Int} : a.Keeps (s.postTransfer v st x) :=
  h.post
theorem postStation (h : a.Keeps s) {st : Nat} {up : Bool} {n : Nat} : a.Keeps (s.postStation st up n) := h.post
theorem postTrunk (h : a.Keeps s) {up : Bool} : a.Keeps (s.postTrunk up) := h.post

theorem refuse (h : a.Keeps s) {st code tag : Nat} {r : Reason} {d : Nat} : a.Keeps (s.refuse st code tag r d) := by
  unfold State.refuse
  split
  · exact h.onTrunk.kick
  · exact h.onTrunk

theorem forward (h : a.Keeps s) {u : UpSample} : a.Keeps (s.forward u) := by
  unfold State.forward
  split
  · exact h.onTrunk.kick
  · exact h.onTrunk

theorem formReply (h : a.Keeps s) {dest seq cls code : Nat} {st : Status} {d : Nat} {r : ResultBytes} {x : Bool} :
    a.Keeps (s.formReply dest seq cls code st d r x) := by
  unfold State.formReply
  dsimp only
  split
  · exact h.withDraws.onTrunk.kick
  · exact h.onTrunk.kick

theorem endLong (h : a.Keeps s) {o : Originator} {st : Status} {d : Nat} : a.Keeps (s.endLong o st d) := by
  unfold State.endLong
  split
  · exact h.onMgmt.formReply
  · exact h

/-! ## The register and its store (R136 to R143) -/

theorem enterStoreFault (h : a.Keeps s) : a.Keeps s.enterStoreFault := by
  unfold State.enterStoreFault
  dsimp only
  split
  · exact h
  · split
    · exact h.onExcise.postExcise.endLong.emit
    · exact h.onExcise.postExcise.emit

theorem writeEntry (h : a.Keeps s) {e : Entry} : a.Keeps (s.writeEntry e) := by
  unfold State.writeEntry
  dsimp only
  split
  · exact h
  · split
    · exact h.onExcise.enterStoreFault
    · exact h.onExcise

theorem writeTransferEntry (h : a.Keeps s) {e : Entry} : a.Keeps (s.writeTransferEntry e) := by
  unfold State.writeTransferEntry
  split
  · exact h
  · exact h.onExcise.writeEntry

theorem closeEvent (h : a.Keeps s) {b : Bool} : a.Keeps (s.closeEvent b) := h.onExcise

theorem writeRestartMark (h : a.Keeps s) : a.Keeps s.writeRestartMark := by
  unfold State.writeRestartMark
  split
  · split
    · exact h.onExcise.writeEntry
    · exact h
  · exact h

theorem writeLockMark (h : a.Keeps s) : a.Keeps s.writeLockMark := by
  unfold State.writeLockMark
  split
  · split
    · exact h.onExcise.writeEntry
    · exact h
  · exact h

theorem writeMarks (h : a.Keeps s) : a.Keeps s.writeMarks := h.writeRestartMark.writeLockMark

theorem writeLock (h : a.Keeps s) {c : RelockCause} : a.Keeps (s.writeLock c) := by
  unfold State.writeLock
  split
  · exact h.writeEntry
  · split
    · exact h
    · exact h.onExcise.postFull

theorem relock (h : a.Keeps s) {c : RelockCause} : a.Keeps (s.relock c) :=
  h.onExcise.writeLock.closeEvent.postExcise

theorem reserveEntries (h : a.Keeps s) {n : Nat} : a.Keeps (s.reserveEntries n) := h.onExcise
theorem releaseEntries (h : a.Keeps s) : a.Keeps s.releaseEntries := h.onExcise.writeMarks

/-! ## The moisture account (R8 to R16) -/

theorem restWeighing (h : a.Keeps s) {v : Fin 12} {g : Int} : a.Keeps (s.restWeighing v g) := by
  unfold State.restWeighing
  split
  · split
    · exact h.onSlot
    · exact h
  · exact h

theorem creditSprinkle (h : a.Keeps s) {v : Fin 12} {l : Int} : a.Keeps (s.creditSprinkle v l) := by
  unfold State.creditSprinkle
  split
  · split
    · exact h.onSlot
    · exact h
  · exact h

theorem clearInteg (h : a.Keeps s) {v : Fin 12} : a.Keeps (s.clearInteg v) := h.onInteg

theorem dryAttempt (h : a.Keeps s) {v : Fin 12} {x : Int} : a.Keeps (s.dryAttempt v x) := by
  obtain ⟨f, hf, -⟩ := exists_eq_stepTime (now := 0) (last := 0) rfl
  unfold State.dryAttempt
  rw [← hf]
  split
  · split
    · exact h.onInteg
    · dsimp only
      split
      all_goals
        split
        · exact h.onInteg.onSlot.onSlot.onInteg
        · exact h.onInteg.onSlot.onInteg
  · exact h

end State.Keeps

end Sys2Proof.Machine
end

section
/-! PROOFS. The command filter keeps the bounds of the command queue (R158 to R162), and what its offers leave alone. -/

namespace Sys2Proof.Machine

-- One declaration after the other: side by side, their stacks are more than the check's bound on memory.
set_option Elab.async false

/-! ## The queue (R158) -/

theorem QEntry.keyed_iff {e : QEntry} {st code : Nat} :
    e.keyed st code = true ↔ e.offer.station = st ∧ e.offer.code = code := by
  simp [QEntry.keyed]

/-- The entry of a key, and the queue around it. -/
theorem Filter.exists_split_of_entry {f : Filter} {st code : Nat} {x : QEntry} (h : f.entry st code = some x) :
    ∃ l r, f.queue = l ++ x :: r ∧ x.keyed st code = true := by
  obtain ⟨hx, hm⟩ := And.intro (List.find?_some h) (List.mem_of_find?_eq_some h)
  obtain ⟨l, r, hlr⟩ := List.append_of_mem hm
  exact ⟨l, r, hlr, hx⟩

/-- Where no two entries have one key, a change of the entries of a key is a change of one. -/
theorem QEntry.map_keyed {l r : List QEntry} {x : QEntry}
    (h : ((l ++ x :: r).map fun e => (e.offer.station, e.offer.code)).Nodup) (g : QEntry → QEntry) :
    ((l ++ x :: r).map fun e => if e.keyed x.offer.station x.offer.code then g e else e) = l ++ g x :: r := by
  rw [List.map_append, List.map_cons, List.nodup_middle, List.nodup_cons, ← List.map_append] at h
  have hnot : ∀ e ∈ l ++ r, e.keyed x.offer.station x.offer.code = false := fun e he => by
    refine Bool.not_eq_true _ ▸ fun hk => h.1 (List.mem_map.2 ⟨e, he, ?_⟩)
    rw [(QEntry.keyed_iff.1 hk).1, (QEntry.keyed_iff.1 hk).2]
  have hid (y : List QEntry) (hy : ∀ e ∈ y, e.keyed x.offer.station x.offer.code = false) :
      (y.map fun e => if e.keyed x.offer.station x.offer.code then g e else e) = y :=
    (List.map_congr_left fun e he => by simp [hy e he]).trans (List.map_id y)
  rw [List.map_append, List.map_cons, if_pos (QEntry.keyed_iff.2 ⟨rfl, rfl⟩),
    hid l fun e he => hnot e (List.mem_append_left r he), hid r fun e he => hnot e (List.mem_append_right l he)]

/-- The entry that replaces e in place (R158). -/
def QEntry.inPlaceOf (new e : QEntry) : QEntry :=
  { new with tries := 0, flight := e.flight.map fun x => { x with replaced := true } }

namespace State.Keeps
variable {a s : State}

/-- An update of the queue that keeps the bounds of R158. -/
theorem onQueue (h : a.Keeps s) {f : Filter → Filter} (hf : s.queueOk → (s.onFilter f).queueOk) :
    a.Keeps (s.onFilter f) :=
  h.trans ⟨id, hf, id⟩

/-- A change of the entries of a key that leaves their offers. -/
theorem onEntry (h : a.Keeps s) {st code : Nat} {g : QEntry → QEntry} (hg : ∀ e, (g e).offer = e.offer := by intro; rfl) :
    a.Keeps (s.onEntry st code g) := by
  refine h.onQueue fun ⟨hlen, hplant, hnodup⟩ => ?_
  have hoff : ∀ e : QEntry, (if e.keyed st code = true then g e else e).offer = e.offer := fun e => by
    split <;> simp [hg]
  refine ⟨by simpa [State.onFilter] using hlen, ?_, ?_⟩
  · simpa [State.onFilter, Filter.plantCount, List.filter_map, Function.comp_def, hoff] using hplant
  · simpa [State.onFilter, Function.comp_def, hoff] using hnodup

theorem dropEntry (h : a.Keeps s) {st code : Nat} : a.Keeps (s.dropEntry st code) := by
  refine h.onQueue fun ⟨hlen, hplant, hnodup⟩ => ⟨?_, ?_, ?_⟩
  · exact (List.filter_sublist.length_le).trans hlen
  · exact ((List.filter_sublist.filter _).length_le).trans hplant
  · exact (List.filter_sublist.map _).nodup hnodup

/-- A new entry joins a queue with room that holds none of its key. -/
theorem enqueue (h : a.Keeps s) {e : QEntry} (hnone : s.filter.entry e.offer.station e.offer.code = none)
    (hlen : s.filter.queue.length < 16) (hplant : e.offer.origin = .plant → s.filter.plantCount < 12) :
    a.Keeps (s.onFilter fun f => { f with queue := f.queue ++ [e] }) := by
  refine h.onQueue fun ⟨_, hcount, hnodup⟩ => ⟨?_, ?_, ?_⟩
  · simp [State.onFilter]; omega
  · unfold Filter.plantCount at *
    by_cases ho : e.offer.origin = .plant
    · have := hplant ho
      simp [State.onFilter, ho]; omega
    · simpa [State.onFilter, ho] using hcount
  · have hfree : ∀ x ∈ s.filter.queue, x.offer.station = e.offer.station → ¬ x.offer.code = e.offer.code := by
      simpa [Filter.entry, QEntry.keyed] using hnone
    simp only [State.onFilter, List.map_append, List.map_cons, List.map_nil, List.nodup_append, hnodup,
      List.nodup_singleton, true_and, List.mem_map, List.mem_singleton]
    rintro _ ⟨x, hx, rfl⟩ _ rfl heq
    exact hfree x hx (Prod.mk.inj heq).1 (Prod.mk.inj heq).2

/-! ## Reports -/

theorem tell (h : a.Keeps s) {x : Answer} {r : Report} {code : Nat} : a.Keeps (s.tell x r code) := by
  unfold State.tell
  split
  · exact h
  · exact h.emit

theorem answer (h : a.Keeps s) {x : Answer} {st code : Nat} {reason : Reason} {d : Nat} {r : Report} :
    a.Keeps (s.answer x st code reason d r) := by
  unfold State.answer
  split
  · exact h.refuse
  · exact h.tell

theorem refuseOffer (h : a.Keeps s) {o : Offer} {r : Reason} {d : Nat} : a.Keeps (s.refuseOffer o r d) :=
  h.onFilter.answer

/-! ## Placement (R158, R159) -/

/-- The replacement of a queued entry by one of its key: a PLANT command takes the place of another's only below the
bound of PLANT entries. -/
theorem replaceEntry (h : a.Keeps s) {old new : QEntry} (hold : s.filter.entry new.offer.station new.offer.code = some old)
    (hplant : new.offer.origin = .plant → old.offer.origin ≠ .plant → s.filter.plantCount < 12) :
    a.Keeps (s.replaceEntry old new) := by
  obtain ⟨l, r, hq, hkey⟩ := Filter.exists_split_of_entry hold
  obtain ⟨hst, hcode⟩ := QEntry.keyed_iff.1 hkey
  have hs1 : a.Keeps (s.onEntry old.offer.station old.offer.code new.inPlaceOf) := by
    refine h.onQueue fun ⟨hlen, hcount, hnodup⟩ => ?_
    rw [hq] at hlen hnodup
    have hnew : (s.onEntry old.offer.station old.offer.code new.inPlaceOf).filter.queue = l ++ new.inPlaceOf old :: r := by
      show s.filter.queue.map _ = _
      rw [hq]
      exact QEntry.map_keyed hnodup new.inPlaceOf
    refine State.queueOk_of_eq (s := s.onFilter fun f => { f with queue := l ++ new.inPlaceOf old :: r }) hnew ?_
    refine ⟨by simpa [State.onFilter] using hlen, ?_, ?_⟩
    · unfold Filter.plantCount at *
      rw [hq] at hcount hplant
      by_cases hp : new.offer.origin = .plant <;> by_cases ho : old.offer.origin = .plant <;>
        simp [State.onFilter, QEntry.inPlaceOf, hp, ho] at hcount hplant ⊢ <;> omega
    · simpa [State.onFilter, QEntry.inPlaceOf, hst, hcode] using hnodup
  unfold State.replaceEntry
  dsimp only
  split
  · split
    · exact hs1.answer
    · exact hs1
  · exact hs1.answer

theorem place (h : a.Keeps s) {e : QEntry} : a.Keeps (s.place e).1 := by
  unfold State.place
  split
  · next old hold =>
    split_ifs with _ _ hfull
    · exact h.refuseOffer
    · exact h
    · exact h.refuseOffer
    · exact h.replaceEntry hold fun hp ho => by simpa [hp, ho] using hfull
  · next hnone =>
    split_ifs with hp hroom hroom
    · exact h.enqueue hnone hroom.1 fun _ => hroom.2
    · exact h.refuseOffer
    · exact h.enqueue hnone hroom fun hp' => absurd hp' hp
    · exact h

theorem joinWaiting (h : a.Keeps s) {o : Offer} : a.Keeps (s.joinWaiting o) := by
  unfold State.joinWaiting
  split
  · exact h.onFilter.tell
  · exact h.onFilter

theorem dropRivals (h : a.Keeps s) {o : Offer} : a.Keeps (s.dropRivals o) := by
  unfold State.dropRivals
  split
  · exact h.onFilter.tell
  · exact h

theorem offer (h : a.Keeps s) {o : Offer} : a.Keeps (s.offer o) := by
  unfold State.offer
  dsimp only
  split
  · exact h.refuseOffer
  · split_ifs
    · exact h.place
    · exact h.place.dropRivals
    · exact h.place.joinWaiting

theorem reofferOne (h : a.Keeps s) {w : WEntry} : a.Keeps (s.reofferOne w) := by
  unfold State.reofferOne
  dsimp only
  split
  · exact h.refuseOffer
  · split_ifs
    · exact h.place
    · exact h.place.onFilter

theorem reoffer (h : a.Keeps s) : a.Keeps s.reoffer := h.onFilter.foldl (fun _ _ h => h.reofferOne) _

theorem discardWaiting (h : a.Keeps s) {v : Fin 12} : a.Keeps (s.discardWaiting v) := h.onFilter

theorem blockOffer (h : a.Keeps s) {o : Origin} {p : Purpose} {st code : Nat} {x : Option Int} :
    a.Keeps (s.blockOffer o p st code x) := h.onFilter.offer
theorem send (h : a.Keeps s) {o : Origin} {p : Purpose} {st code : Nat} : a.Keeps (s.send o p st code) := h.blockOffer
theorem sendArg (h : a.Keeps s) {o : Origin} {p : Purpose} {st code : Nat} {x : Int} :
    a.Keeps (s.sendArg o p st code x) := h.blockOffer

theorem sendTo (h : a.Keeps s) {o : Origin} {p : Purpose} {st : Option Nat} {code : Nat} :
    a.Keeps (s.sendTo o p st code) := by
  unfold State.sendTo
  split
  · exact h.send
  · exact h

theorem sendArgTo (h : a.Keeps s) {o : Origin} {p : Purpose} {st : Option Nat} {code : Nat} {x : Int} :
    a.Keeps (s.sendArgTo o p st code x) := by
  unfold State.sendArgTo
  split
  · exact h.sendArg
  · exact h

/-! ## Delivery and confirmation (R160 to R162) -/

theorem prepare (h : a.Keeps s) {st code : Nat} : a.Keeps (s.prepare st code).1 := by
  unfold State.prepare
  dsimp only
  split
  · exact h
  · split
    · exact h.onFilter.dropEntry.answer.reoffer
    · split_ifs
      · exact h.onFilter.dropEntry.tell.reoffer
      · exact h.onFilter.onEntry

theorem prepareAll (h : a.Keeps s) (l : List (Nat × Nat)) : a.Keeps (s.prepareAll l).1 := by
  induction l generalizing s with
  | nil => exact h
  | cons x l ih => exact ih h.prepare

theorem windowCommands (h : a.Keeps s) : a.Keeps s.windowCommands.1 := h.prepareAll _

theorem creditDelivered (h : a.Keeps s) {e : QEntry} {x : Flight} : a.Keeps (s.creditDelivered e x) := by
  unfold State.creditDelivered
  split
  · split
    · split_ifs
      · exact h.creditSprinkle
      · exact h
    · exact h
  · exact h

theorem deliveryAccepted (h : a.Keeps s) {e : QEntry} {x : Flight} : a.Keeps (s.deliveryAccepted e x) :=
  h.creditDelivered.tell.dropEntry.reoffer

theorem deliveryFailed (h : a.Keeps s) {e : QEntry} {x : Flight} {r : Reason} : a.Keeps (s.deliveryFailed e x r) := by
  unfold State.deliveryFailed
  dsimp only
  split
  · exact h.dropEntry.refuse.reoffer
  · split_ifs
    · exact h.onEntry
    · exact h.dropEntry.tell.reoffer

theorem keepOutcome (h : a.Keeps s) {e : QEntry} {x : Flight} {b : Bool} : a.Keeps (s.keepOutcome e x b) := by
  unfold State.keepOutcome
  split_ifs
  · exact h.creditDelivered.onEntry
  · exact h.onEntry

theorem takeConfirm (h : a.Keeps s) {src tag : Nat} {b : Bool} : a.Keeps (s.takeConfirm src tag b) := by
  unfold State.takeConfirm
  split
  · split_ifs
    · exact h.keepOutcome
    · exact h.deliveryAccepted
    · exact h.deliveryFailed
  · exact h.onFilter

theorem reportOutcome (h : a.Keeps s) {e : QEntry} {x : Flight} : a.Keeps (s.reportOutcome e x) := by
  unfold State.reportOutcome
  dsimp only
  split
  · exact h.onEntry.tell
  · exact h.onEntry.answer
  · exact h.onEntry.answer

theorem settleFlights (h : a.Keeps s) : a.Keeps s.settleFlights := by
  refine h.foldl (fun s e h => ?_) _
  split
  · split
    · split_ifs
      · exact h.reportOutcome
      · exact h.deliveryFailed
    · exact h
  · exact h

end State.Keeps

/-! ## What an offer leaves alone -/

/-- t has of s every field but the filter, the events under way, and what answers and notices change. -/
def State.SameButOffers (s t : State) : Prop :=
  t = { s with filter := t.filter, trunk := t.trunk, notices := t.notices, work := t.work, draws := t.draws }

namespace State.SameButOffers
variable {a s t : State}

theorem refl (s : State) : s.SameButOffers s := Eq.refl s

theorem trans {u : State} (h : s.SameButOffers t) (h' : t.SameButOffers u) : s.SameButOffers u :=
  Eq.trans h' (congrArg (fun x => { x with
    filter := u.filter, trunk := u.trunk, notices := u.notices, work := u.work, draws := u.draws }) h)

theorem eq (h : s.SameButOffers t) :
    t = { s with filter := t.filter, trunk := t.trunk, notices := t.notices, work := t.work, draws := t.draws } := h

theorem clock (h : s.SameButOffers t) : t.clock = s.clock := (congrArg State.clock h.eq :)
theorem field (h : s.SameButOffers t) : t.field = s.field := (congrArg State.field h.eq :)
theorem intake (h : s.SameButOffers t) : t.intake = s.intake := (congrArg State.intake h.eq :)
theorem staged (h : s.SameButOffers t) : t.staged = s.staged := (congrArg State.staged h.eq :)
theorem tables (h : s.SameButOffers t) : t.tables = s.tables := (congrArg State.tables h.eq :)
theorem vessels (h : s.SameButOffers t) : t.vessels = s.vessels := (congrArg State.vessels h.eq :)
theorem steeps (h : s.SameButOffers t) : t.steeps = s.steeps := (congrArg State.steeps h.eq :)
theorem comps (h : s.SameButOffers t) : t.comps = s.comps := (congrArg State.comps h.eq :)
theorem turners (h : s.SameButOffers t) : t.turners = s.turners := (congrArg State.turners h.eq :)
theorem kilns (h : s.SameButOffers t) : t.kilns = s.kilns := (congrArg State.kilns h.eq :)
theorem batch (h : s.SameButOffers t) : t.batch = s.batch := (congrArg State.batch h.eq :)
theorem transfer (h : s.SameButOffers t) : t.transfer = s.transfer := (congrArg State.transfer h.eq :)
theorem excise (h : s.SameButOffers t) : t.excise = s.excise := (congrArg State.excise h.eq :)
theorem mgmt (h : s.SameButOffers t) : t.mgmt = s.mgmt := (congrArg State.mgmt h.eq :)
theorem pending (h : s.SameButOffers t) : t.pending = s.pending := (congrArg State.pending h.eq :)

theorem of_sameBut (h : a.SameButOffers s) (hs : State.SameBut s t) : a.SameButOffers t := by
  refine h.trans ?_
  obtain ⟨h1, h2, h3, h4, h5, h6, h7, h8, h9, h10, h11, h12, h13, -, h15, -, h17⟩ := hs
  obtain ⟨⟩ := t
  subst h1 h2 h3 h4 h5 h6 h7 h8 h9 h10 h11 h12 h13 h15 h17
  rfl

theorem onFilter (h : a.SameButOffers s) {f : Filter → Filter} : a.SameButOffers (s.onFilter f) := h.trans (Eq.refl _)
theorem emit (h : a.SameButOffers s) {e : Event} : a.SameButOffers (s.emit e) := h.trans (Eq.refl _)
theorem post (h : a.SameButOffers s) {k : NoticeKind} {c : SourceClass} {i n : Nat} {v : Int} :
    a.SameButOffers (s.post k c i n v) := h.of_sameBut (State.post_same ..)
theorem refuse (h : a.SameButOffers s) {st code tag : Nat} {r : Reason} {d : Nat} :
    a.SameButOffers (s.refuse st code tag r d) := h.of_sameBut (State.refuse_same ..)

theorem answer (h : a.SameButOffers s) {x : Answer} {st code : Nat} {reason : Reason} {d : Nat} {r : Report} :
    a.SameButOffers (s.answer x st code reason d r) := by
  unfold State.answer
  split
  · exact h.refuse
  · exact h.emit

theorem refuseOffer (h : a.SameButOffers s) {o : Offer} {r : Reason} {d : Nat} : a.SameButOffers (s.refuseOffer o r d) :=
  h.onFilter.answer

theorem place (h : a.SameButOffers s) {e : QEntry} : a.SameButOffers (s.place e).1 := by
  unfold State.place
  split
  · split_ifs
    · exact h.refuseOffer
    · exact h
    · exact h.refuseOffer
    · unfold State.replaceEntry
      dsimp only
      split
      · split
        · exact h.onFilter.answer
        · exact h.onFilter
      · exact h.onFilter.answer
  · split_ifs
    · exact h.trans (Eq.refl _)
    · exact h.refuseOffer
    · exact h.trans (Eq.refl _)
    · exact h

theorem tell (h : a.SameButOffers s) {x : Answer} {r : Report} {code : Nat} : a.SameButOffers (s.tell x r code) := by
  unfold State.tell
  split
  · exact h
  · exact h.emit

theorem offer (h : a.SameButOffers s) {o : Offer} : a.SameButOffers (s.offer o) := by
  unfold State.offer
  dsimp only
  split
  · exact h.refuseOffer
  · split_ifs
    · exact h.place
    · unfold State.dropRivals
      split
      · exact h.place.onFilter.tell
      · exact h.place
    · unfold State.joinWaiting
      split
      · exact h.place.onFilter.tell
      · exact h.place.onFilter

theorem blockOffer (h : a.SameButOffers s) {o : Origin} {p : Purpose} {st code : Nat} {x : Option Int} :
    a.SameButOffers (s.blockOffer o p st code x) := h.onFilter.offer

theorem sendTo (h : a.SameButOffers s) {o : Origin} {p : Purpose} {st : Option Nat} {code : Nat} :
    a.SameButOffers (s.sendTo o p st code) := by
  unfold State.sendTo
  split
  · exact h.blockOffer
  · exact h

theorem sendArgTo (h : a.SameButOffers s) {o : Origin} {p : Purpose} {st : Option Nat} {code : Nat} {x : Int} :
    a.SameButOffers (s.sendArgTo o p st code x) := by
  unfold State.sendArgTo
  split
  · exact h.blockOffer
  · exact h

end State.SameButOffers
end Sys2Proof.Machine
end

section
/-! PROOFS. The grant and the cap of a kiln (R102, R103, R106 to R110): what each act makes of them, and that each keeps
the grants within the budget and the caps within the grants. -/

namespace Sys2Proof.Machine

-- One declaration after the other: side by side, their stacks are more than the check's bound on memory.
set_option Elab.async false

/-! ## Kilns -/

theorem State.kiln_onKiln (s : State) (k j : Fin 2) (f : Kiln → Kiln) :
    (s.onKiln k f).kiln j = if j = k then f (s.kiln j) else s.kiln j := bank_onBank ..

@[simp] theorem State.kiln_onKiln_same (s : State) (k : Fin 2) (f : Kiln → Kiln) :
    (s.onKiln k f).kiln k = f (s.kiln k) := bank_onBank_same ..

theorem State.kiln_onKiln_ne (s : State) {k j : Fin 2} (h : j ≠ k) (f : Kiln → Kiln) :
    (s.onKiln k f).kiln j = s.kiln j := bank_onBank_ne _ h f

theorem other_ne (k : Fin 2) : other k ≠ k := by revert k; decide
theorem eq_or_eq_other (j k : Fin 2) : j = k ∨ j = other k := by revert j k; decide

/-- The sum of the grants, from the kiln at hand. -/
theorem State.grants_eq (s : State) (k : Fin 2) :
    (s.kiln 0).grant + (s.kiln 1).grant = (s.kiln k).grant + (s.kiln (other k)).grant := by
  obtain rfl | rfl : k = 0 ∨ k = 1 := eq_or_eq_other k 0
  · rfl
  · exact Nat.add_comm ..

theorem State.SameButOffers.kiln {s t : State} (h : s.SameButOffers t) (k : Fin 2) : t.kiln k = s.kiln k :=
  congrArg (bank · k) h.kilns

theorem State.post_kiln (s : State) (n : NoticeKind) (c : SourceClass) (i st : Nat) (v : Int) (k : Fin 2) :
    (s.post n c i st v).kiln k = s.kiln k := (State.SameButOffers.refl s).post.kiln k
theorem State.post_tables (s : State) (n : NoticeKind) (c : SourceClass) (i st : Nat) (v : Int) :
    (s.post n c i st v).tables = s.tables := (State.SameButOffers.refl s).post.tables
theorem State.postPhase_kiln (s : State) (v : Fin 12) (n : Nat) (k : Fin 2) : (s.postPhase v n).kiln k = s.kiln k :=
  State.post_kiln ..
theorem State.postPhase_budget (s : State) (v : Fin 12) (n : Nat) : (s.postPhase v n).budget = s.budget :=
  congrArg (fun t : Tables => t.config.budgetOf) (State.post_tables ..)

theorem State.restCap_kiln (s : State) (k j : Fin 2) :
    (s.restCap k).kiln j = s.kiln j ∨ j = k ∧ (s.restCap k).kiln j = { s.kiln j with step := none } := by
  unfold State.restCap
  dsimp only
  split
  · rw [State.kiln_onKiln]
    split
    · exact .inr ⟨‹_›, rfl⟩
    · exact .inl rfl
  · exact .inl rfl

theorem State.restCap_tables (s : State) (k : Fin 2) : (s.restCap k).tables = s.tables := by
  unfold State.restCap
  dsimp only
  split <;> rfl

/-- The cap that is set, with the kiln else as it was but for its step timer. -/
theorem State.setCap_kiln_same (s : State) (k : Fin 2) (c : Nat) :
    (s.setCap k c).kiln k = { s.kiln k with cap := c, step := ((s.setCap k c).kiln k).step } := by
  unfold State.setCap
  split
  · next hc =>
    subst hc
    obtain h | ⟨-, h⟩ := s.restCap_kiln k k <;> rw [h]
  · rw [(State.SameButOffers.refl _).sendArgTo.kiln]
    obtain h | ⟨-, h⟩ := (s.onKiln k fun y => { y with cap := c }).restCap_kiln k k <;> rw [h] <;> simp

theorem State.setCap_kiln_ne (s : State) {k j : Fin 2} (hj : j ≠ k) (c : Nat) : (s.setCap k c).kiln j = s.kiln j := by
  have hrest (t : State) : (t.restCap k).kiln j = t.kiln j := by
    obtain h | ⟨h, -⟩ := t.restCap_kiln k j
    · exact h
    · exact absurd h hj
  unfold State.setCap
  split
  · exact hrest s
  · rw [(State.SameButOffers.refl _).sendArgTo.kiln, hrest, State.kiln_onKiln_ne _ hj]

theorem State.setCap_tables (s : State) (k : Fin 2) (c : Nat) : (s.setCap k c).tables = s.tables := by
  unfold State.setCap
  split
  · exact s.restCap_tables k
  · rw [(State.SameButOffers.refl _).sendArgTo.tables, State.restCap_tables]
    rfl

theorem State.capTarget_le (s : State) (k : Fin 2) : s.capTarget k ≤ (s.kiln k).grant := by
  unfold State.capTarget
  dsimp only
  split
  · exact Nat.min_le_left ..
  · exact Nat.le_refl _

/-- The grant that is set, and a cap that stands within it where it stood within the old one. -/
theorem State.setGrant_kiln_same (s : State) (k : Fin 2) (g : Nat) :
    ((s.setGrant k g).kiln k).grant = g ∧
      ((s.kiln k).cap ≤ (s.kiln k).grant → ((s.setGrant k g).kiln k).cap ≤ g) := by
  unfold State.setGrant
  dsimp only
  split_ifs with hlt hgt
  · rw [State.setCap_kiln_same]
    exact ⟨by simp, fun _ => Nat.min_le_right ..⟩
  · rw [State.setCap_kiln_same]
    refine ⟨by simp, fun _ => ?_⟩
    have := (s.onKiln k fun y => { y with grant := g }).capTarget_le k
    simpa using this
  · refine ⟨by simp, fun h => ?_⟩
    simp only [State.kiln_onKiln_same]
    omega

theorem State.setGrant_kiln_ne (s : State) {k j : Fin 2} (hj : j ≠ k) (g : Nat) : (s.setGrant k g).kiln j = s.kiln j := by
  unfold State.setGrant
  dsimp only
  split_ifs <;> simp [State.setCap_kiln_ne _ hj, State.kiln_onKiln_ne _ hj]

theorem State.setGrant_tables (s : State) (k : Fin 2) (g : Nat) : (s.setGrant k g).tables = s.tables := by
  unfold State.setGrant
  dsimp only
  split_ifs <;> simp [State.setCap_tables]

/-! ## Offers to a kiln's stations -/

namespace State.Keeps
variable {a s : State}

theorem kilnSend (h : a.Keeps s) {k : Fin 2} {st : KilnCfg → Nat} {code : Nat} : a.Keeps (s.kilnSend k st code) :=
  h.sendTo
theorem kilnSendArg (h : a.Keeps s) {k : Fin 2} {st : KilnCfg → Nat} {code : Nat} {x : Int} :
    a.Keeps (s.kilnSendArg k st code x) := h.sendArgTo

/-! ## The cap and its step timer (R106 to R109) -/

theorem restCap (h : a.Keeps s) {k : Fin 2} : a.Keeps (s.restCap k) := by
  unfold State.restCap
  dsimp only
  split
  · exact h.onKiln
  · exact h

/-- A cap within the grant. -/
theorem setCap (h : a.Keeps s) {k : Fin 2} {c : Nat} (hc : s.heatOk → c ≤ (s.kiln k).grant) :
    a.Keeps (s.setCap k c) := by
  have hset : a.Keeps (s.onKiln k fun y => { y with cap := c }) := by
    refine h.trans ⟨fun hs => ?_, id, id⟩
    have hg (j : Fin 2) : ((s.onKiln k fun y => { y with cap := c }).kiln j).grant = (s.kiln j).grant := by
      rw [State.kiln_onKiln]
      split <;> rfl
    refine ⟨by rw [hg, hg]; exact hs.1, fun j => ?_⟩
    rw [hg, State.kiln_onKiln]
    split
    · next hj => exact hj ▸ hc hs
    · exact hs.2 j
  unfold State.setCap
  split
  · exact h.restCap
  · exact hset.restCap.sendArgTo

theorem loadStep (h : a.Keeps s) {k : Fin 2} {d : StepDir} : a.Keeps (s.loadStep k d) := by
  unfold State.loadStep
  split
  · split_ifs
    · exact h.onKiln
    · exact h
  · exact h

theorem stepDown (h : a.Keeps s) {k : Fin 2} : a.Keeps (s.stepDown k) := by
  refine Keeps.loadStep (h.setCap fun hs => ?_)
  have := hs.2 k
  omega

theorem loadRecovery (h : a.Keeps s) {k : Fin 2} : a.Keeps (s.loadRecovery k) := by
  unfold State.loadRecovery
  split_ifs
  · exact h.loadStep
  · exact h.onKiln

theorem retakeThermal (h : a.Keeps s) {k : Fin 2} {b : Bool} : a.Keeps (s.retakeThermal k b) := by
  unfold State.retakeThermal
  dsimp only
  split
  · exact h.onKiln
  · split_ifs
    · exact h.onKiln
    · exact h.onKiln.stepDown
    · exact h.onKiln.loadStep
    · exact h.onKiln.stepDown
    · exact h.onKiln
  · split_ifs
    · exact h.onKiln.loadRecovery
    · exact h.onKiln

/-! ## Grants (R102, R103) -/

/-- A grant for which the budget has room beside the other kiln's. -/
theorem setGrant (h : a.Keeps s) {k : Fin 2} {g : Nat} (hg : s.heatOk → g ≤ s.budget - (s.kiln (other k)).grant) :
    a.Keeps (s.setGrant k g) := by
  have hrest : (s.onKiln k fun y => { y with grant := g }).Keeps (s.setGrant k g) := by
    unfold State.setGrant
    dsimp only
    split_ifs
    · exact (Keeps.refl _).setCap fun _ => by simp
    · exact (Keeps.refl _).setCap fun _ => State.capTarget_le ..
    · exact Keeps.refl _
  refine h.trans ⟨fun ⟨hsum, hcap⟩ => ?_, hrest.queue, hrest.notices⟩
  obtain ⟨hself, hle⟩ := s.setGrant_kiln_same k g
  have hother := s.setGrant_kiln_ne (other_ne k) g
  have hroom := hg ⟨hsum, hcap⟩
  rw [State.grants_eq s k] at hsum
  unfold State.heatOk
  rw [State.grants_eq _ k, State.budget, State.setGrant_tables, hself, hother]
  change _ ≤ s.budget ∧ _
  refine ⟨by omega, fun j => ?_⟩
  obtain rfl | rfl := eq_or_eq_other j k
  · rw [hself]
    exact hle (hcap j)
  · rw [hother]
    exact hcap _

theorem room_le (k : Fin 2) (r : Nat) : s.room k r ≤ s.budget - (s.kiln (other k)).grant := Nat.min_le_right ..

/-! ## The peat gate and the burner (R103, R111) -/

theorem setGate (h : a.Keeps s) {k : Fin 2} {b : Bool} : a.Keeps (s.setGate k b) := by
  unfold State.setGate
  dsimp only
  split_ifs
  · exact h
  · exact h.onKiln.sendTo
  · exact h.onKiln
  · exact h.onKiln.sendTo
  · exact h.onKiln

theorem evalGate (h : a.Keeps s) {k : Fin 2} : a.Keeps (s.evalGate k) := h.setGate

theorem offerPeat (h : a.Keeps s) {k : Fin 2} : a.Keeps (s.offerPeat k) := by
  unfold State.offerPeat
  split_ifs
  · exact h.sendTo
  · exact h

theorem offerBurner (h : a.Keeps s) {k : Fin 2} : a.Keeps (s.offerBurner k) := h.kilnSend.kilnSendArg

/-! ## Re-evaluation (R103) -/

theorem regrant (h : a.Keeps s) {k : Fin 2} : a.Keeps (s.regrant k) := by
  unfold State.regrant
  split
  · split
    · next f _ =>
      dsimp only
      split
      · split
        · refine (Keeps.setGrant h.onKiln.postPhase fun _ => ?_).evalGate.offerBurner.offerPeat
          rw [State.postPhase_kiln, State.postPhase_budget, State.kiln_onKiln_ne _ (other_ne k)]
          exact room_le k f.request
        · exact h
      · split
        · exact (h.setGrant fun _ => room_le k f.request).kilnSendArg
        · exact h
    · exact h
  · exact h

/-- A grant that falls, or for which the budget has room. -/
theorem changeGrant (h : a.Keeps s) {k : Fin 2} {g : Nat} (hg : s.heatOk → g ≤ s.budget - (s.kiln (other k)).grant) :
    a.Keeps (s.changeGrant k g) := by
  unfold State.changeGrant
  dsimp only
  split_ifs
  · exact (h.setGrant hg).regrant
  · exact h.setGrant hg

theorem changeGrant_zero (h : a.Keeps s) {k : Fin 2} : a.Keeps (s.changeGrant k 0) := h.changeGrant fun _ => Nat.zero_le _

/-! ## BLIND and the step timer's expiry (R108, R110) -/

theorem kilnBlinded (h : a.Keeps s) {k : Fin 2} : a.Keeps (s.kilnBlinded k) := by
  have hcap := h.setCap (k := k) (c := min (s.kiln k).cap (s.blindCap k)) fun hs =>
    (Nat.min_le_left ..).trans (hs.2 k)
  unfold State.kilnBlinded
  dsimp only
  split
  · split_ifs
    · exact hcap.onKiln
    · exact hcap
  · exact hcap

theorem kilnSees (h : a.Keeps s) {k : Fin 2} : a.Keeps (s.kilnSees k) := by
  unfold State.kilnSees
  dsimp only
  split
  · exact h
  · split_ifs
    · exact h.loadStep
    · exact h

theorem kilnStepExpires (h : a.Keeps s) {k : Fin 2} : a.Keeps (s.kilnStepExpires k) := by
  unfold State.kilnStepExpires
  dsimp only
  split
  · split_ifs
    · exact h.stepDown
    · exact h.loadRecovery
    · exact h
  · split_ifs with _ hlt
    · exact Keeps.loadRecovery (h.setCap fun _ => hlt.trans_le (s.capTarget_le k))
    · exact h.onKiln
    · exact h.onKiln
    · exact h
  · exact h

end State.Keeps
end Sys2Proof.Machine
end

section
/-! PROOFS. The sequencers of vessels and turners and the comparators keep the bounds (chapters 2 to 5). -/

namespace Sys2Proof.Machine

-- One declaration after the other: side by side, their stacks are more than the check's bound on memory.
set_option Elab.async false

/-! ## Kiln stages and grants -/

theorem State.kilnTo_kiln_other (s : State) (k : Fin 2) (p : KilnState) :
    (s.kilnTo k p).kiln (other k) = s.kiln (other k) := by
  rw [State.kilnTo, State.postPhase_kiln, State.kiln_onKiln_ne _ (other_ne k)]

theorem State.kilnTo_budget (s : State) (k : Fin 2) (p : KilnState) : (s.kilnTo k p).budget = s.budget :=
  State.postPhase_budget ..

theorem State.grantFor_le (s : State) (k : Fin 2) (f : KilnStage) :
    (s.grantFor k f).2 ≤ s.budget - (s.kiln (other k)).grant := by
  unfold State.grantFor
  dsimp only
  split
  · exact State.Keeps.room_le k f.request
  · exact Nat.zero_le _

namespace State.Keeps
variable {a s : State}

/-! ## What every vessel shares (R38, R46, R57, R118) -/

theorem steepCloseOpen (h : a.Keeps s) {i : Fin 4} : a.Keeps (s.steepCloseOpen i) := by
  unfold State.steepCloseOpen
  dsimp only
  split
  · split_ifs
    · exact h.send
    · exact h.send
    · exact h
  · exact h

theorem leaveAuto (h : a.Keeps s) {v : Fin 12} : a.Keeps (s.leaveAuto v) := by
  unfold State.leaveAuto
  split
  · exact h.steepCloseOpen.onSteep.discardWaiting
  · exact h.discardWaiting
  · exact h.discardWaiting

theorem vesselFault (h : a.Keeps s) {v : Fin 12} {c : FaultCode} : a.Keeps (s.vesselFault v c) := by
  unfold State.vesselFault
  dsimp only
  split
  · exact h.postFault
  · exact h.onVessel.postFault
  · exact h.onVessel.postFault.postVessel.leaveAuto
  · exact h.onVessel.postFault.postVessel

theorem loadWatch (h : a.Keeps s) {v : Fin 12} : a.Keeps (s.loadWatch v) := by
  unfold State.loadWatch
  split
  · exact h.onVessel
  · exact h

theorem addRequest (h : a.Keeps s) {r : TransferReq} : a.Keeps (s.addRequest r) := h.onTransfer.emit

theorem postRequest (h : a.Keeps s) {v : Fin 12} : a.Keeps (s.postRequest v) := by
  unfold State.postRequest
  split
  · exact h
  · exact h.addRequest

/-! ## Turners (R70 to R87) -/

theorem turnerTo (h : a.Keeps s) {t : Fin 2} {f : Turner → Turner} : a.Keeps (s.turnerTo t f) := h.onTurner.post
theorem drive (h : a.Keeps s) {t : Fin 2} {code : Nat} : a.Keeps (s.drive t code) := h.sendTo
theorem moveTo (h : a.Keeps s) {t : Fin 2} {p : Nat} : a.Keeps (s.moveTo t p) := h.onTurner.sendArgTo

theorem offerSprinkle (h : a.Keeps s) {c : Fin 6} : a.Keeps (s.offerSprinkle c) := by
  unfold State.offerSprinkle
  split
  · split
    · exact h.sendArgTo
    · exact h
  · exact h

theorem startPass (h : a.Keeps s) {t : Fin 2} {c : Fin 6} : a.Keeps (s.startPass t c) :=
  h.onTurner.drive.turnerTo.offerSprinkle

theorem grantTurner (h : a.Keeps s) {c : Fin 6} {t : Fin 2} : a.Keeps (s.grantTurner c t) := by
  unfold State.grantTurner
  dsimp only
  split
  · exact h.onComp.onTurner.startPass
  · exact h.onComp.onTurner.onTurner.moveTo.turnerTo

theorem turnerArbiter (h : a.Keeps s) : a.Keeps s.turnerArbiter := by
  refine h.foldl (fun s d h => ?_) _
  split
  · exact h.grantTurner
  · exact h

theorem raiseDemand (h : a.Keeps s) {c : Fin 6} {k : DemandKind} : a.Keeps (s.raiseDemand c k) := by
  unfold State.raiseDemand
  dsimp only
  split
  · split
    · exact h.onComp.turnerArbiter
    · split_ifs
      · exact h.onComp.turnerArbiter
      · exact h.onComp
      · exact h
  · exact h

theorem returnDemand (h : a.Keeps s) {t : Fin 2} {c : Fin 6} : a.Keeps (s.returnDemand t c) := h.onComp

theorem countTurnerFault (h : a.Keeps s) {c : Fin 6} : a.Keeps (s.countTurnerFault c) := by
  unfold State.countTurnerFault
  dsimp only
  split
  · exact h.onComp.postFault
  · exact h.onComp.vesselFault

theorem homeFailed (h : a.Keeps s) {t : Fin 2} : a.Keeps (s.homeFailed t) := by
  unfold State.homeFailed
  split
  · split
    · exact h.endLong
    · exact h
  · exact h

theorem turnerFault (h : a.Keeps s) {t : Fin 2} {c : TurnerCause} : a.Keeps (s.turnerFault t c) := by
  have hfault : a.Keeps (((s.drive t cSTOP).onTurner t fun x => { x with moveTimer := none, passTimer := none }).turnerTo t
      fun x => { x with state := .fault, cause := some c, faultReport := none }) := h.drive.onTurner.turnerTo
  have hhome := (hfault.homeFailed (t := t)).ite (c := (s.turner t).state = .homing) hfault
  unfold State.turnerFault
  dsimp only
  cases (s.turner t).assigned with
  | none => exact hhome
  | some n => exact (hhome.ite hhome.countTurnerFault).returnDemand.turnerArbiter

theorem driveFailed (h : a.Keeps s) {t : Fin 2} : a.Keeps (s.driveFailed t) := by
  unfold State.driveFailed
  split
  any_goals exact h.turnerFault
  · exact h.post
  · exact h

theorem driveAccepted (h : a.Keeps s) {t : Fin 2} {n : Nat} : a.Keeps (s.driveAccepted t n) := h.onTurner

theorem turnerArrives (h : a.Keeps s) {t : Fin 2} : a.Keeps (s.turnerArrives t) := by
  unfold State.turnerArrives
  dsimp only
  split
  · exact h.onTurner.turnerArbiter.turnerTo.turnerArbiter
  · split_ifs
    · exact h.onTurner.turnerArbiter.startPass
    · exact h.onTurner.turnerArbiter.turnerTo.returnDemand.turnerArbiter
    · exact h.onTurner.turnerArbiter.turnerTo.onComp.turnerArbiter

theorem homingArrives (h : a.Keeps s) {t : Fin 2} : a.Keeps (s.homingArrives t) := h.onTurner.drive.turnerArbiter

theorem turnerReport (h : a.Keeps s) {t : Fin 2} {v : Int} : a.Keeps (s.turnerReport t v) := by
  unfold State.turnerReport
  dsimp only
  split_ifs
  · exact h.onTurner
  · exact h.turnerArrives
  · exact h.homingArrives
  · exact h.turnerFault
  · exact h
  · split
    any_goals exact h.turnerFault
    all_goals exact h
  · exact h

theorem trackPass (h : a.Keeps s) {t : Fin 2} {d : Int} : a.Keeps (s.trackPass t d) := h.onTurner

theorem markerTest (h : a.Keeps s) {t : Fin 2} {b : Bool} {d : Int} : a.Keeps (s.markerTest t b d) := by
  unfold State.markerTest
  dsimp only
  split_ifs
  · exact h.onTurner.post.onTurner.onTurner
  · exact h.onTurner.onTurner
  · exact h.onTurner.onTurner
  · exact h.onTurner

theorem passComplete (h : a.Keeps s) {t : Fin 2} : a.Keeps (s.passComplete t) := by
  have hidle : a.Keeps (((s.drive t cSTOP).onTurner t fun x => { x with passTimer := none }).turnerTo t fun x =>
      { x with state := .idle, assigned := none }) := h.drive.onTurner.turnerTo
  unfold State.passComplete
  dsimp only
  split
  · exact hidle.emit.turnerArbiter
  · split_ifs
    · exact hidle.onComp.onComp.raiseDemand.emit.turnerArbiter
    · exact hidle.onComp.onComp.emit.turnerArbiter

theorem homeDone (h : a.Keeps s) {t : Fin 2} : a.Keeps (s.homeDone t) := by
  unfold State.homeDone
  split
  · split
    · exact h.onMgmt.endLong.ite h.onMgmt
    · exact h
  · exact h

theorem homingEnds (h : a.Keeps s) {t : Fin 2} : a.Keeps (s.homingEnds t) :=
  h.drive.onTurner.turnerTo.homeDone.turnerArbiter

theorem turnerEncoder (h : a.Keeps s) {t : Fin 2} {d : Int} {b : Bool} : a.Keeps (s.turnerEncoder t d b) := by
  have htrack : a.Keeps ((s.trackPass t d).markerTest t b d) := h.trackPass.markerTest
  unfold State.turnerEncoder
  dsimp only
  split
  · split
    · exact htrack.drive.turnerTo
    · exact htrack
  · split
    · exact htrack.passComplete
    · exact htrack
  · split
    · exact htrack.homingEnds
    · exact htrack
  all_goals exact htrack

theorem turnerClear (h : a.Keeps s) {t : Fin 2} {p : Nat} : a.Keeps (s.turnerClear t p) := by
  unfold State.turnerClear
  dsimp only
  split
  · exact h.onTurner.turnerTo.turnerArbiter.emit
  · exact h.onTurner.turnerTo.emit

theorem moveExpires (h : a.Keeps s) {t : Fin 2} : a.Keeps (s.moveExpires t) := by
  unfold State.moveExpires
  split
  · exact h.turnerFault
  · exact h

theorem passExpires (h : a.Keeps s) {t : Fin 2} : a.Keeps (s.passExpires t) := by
  unfold State.passExpires
  split
  · exact h.turnerFault
  · exact h

/-! ## Steeps (R50 to R58) -/

theorem steepSend (h : a.Keeps s) {i : Fin 4} {st : SteepCfg → Option Nat} {code : Nat} :
    a.Keeps (s.steepSend i st code) := h.sendTo
theorem steepSendArg (h : a.Keeps s) {i : Fin 4} {st : SteepCfg → Option Nat} {code : Nat} {x : Int} :
    a.Keeps (s.steepSendArg i st code x) := h.sendArgTo

theorem fanStop (h : a.Keeps s) {i : Fin 4} : a.Keeps (s.fanStop i) := by
  unfold State.fanStop
  split
  · exact h
  · exact h.steepSend

theorem fanRun (h : a.Keeps s) {i : Fin 4} : a.Keeps (s.fanRun i) := by
  unfold State.fanRun
  split
  · exact h
  · split
    · exact h.steepSend.steepSendArg
    · exact h

theorem fanOfStep (h : a.Keeps s) {i : Fin 4} : a.Keeps (s.fanOfStep i) := by
  unfold State.fanOfStep
  split
  · exact h.fanRun
  · exact h.fanRun
  · exact h.fanStop
  · exact h.fanStop
  · exact h.fanStop
  all_goals exact h

theorem fanOverride (h : a.Keeps s) {i : Fin 4} : a.Keeps (s.fanOverride i) := by
  unfold State.fanOverride
  dsimp only
  split
  · exact h.sendTo.sendArgTo
  · exact h.sendTo

theorem co2Refresh (h : a.Keeps s) {i : Fin 4} : a.Keeps (s.co2Refresh i) := by
  unfold State.co2Refresh
  dsimp only
  split_ifs
  · exact h
  · exact h.onSteep.fanOverride
  · exact h.onSteep.fanOfStep
  · exact h.onSteep

theorem steepTo (h : a.Keeps s) {i : Fin 4} {p : SteepState} : a.Keeps (s.steepTo i p) := by
  unfold State.steepTo
  split
  · exact h
  · exact h.onSteep.postPhase

theorem aerate (h : a.Keeps s) {i : Fin 4} : a.Keeps (s.aerate i) := h.steepSend

theorem waterSet (h : a.Keeps s) {i : Fin 4} : a.Keeps (s.waterSet i) := by
  unfold State.waterSet
  split
  · exact h.steepSendArg
  · exact h

theorem steepFull (h : a.Keeps s) {i : Fin 4} : a.Keeps (s.steepFull i) := h.steepSend.aerate.onSteep.steepTo
theorem steepDrained (h : a.Keeps s) {i : Fin 4} : a.Keeps (s.steepDrained i) := h.steepSend.onSteep

theorem levelCheck (h : a.Keeps s) {i : Fin 4} {x : Int} : a.Keeps (s.levelCheck i x) := by
  unfold State.levelCheck
  split
  · split
    · exact h
    · split
      · split
        · exact h.steepFull
        · exact h
      · split
        · exact h.steepDrained
        · exact h
      · exact h
  · exact h

theorem levelNow (h : a.Keeps s) {i : Fin 4} : a.Keeps (s.levelNow i) := by
  unfold State.levelNow
  split
  · exact h.levelCheck
  · exact h

theorem loadWait (h : a.Keeps s) {i : Fin 4} {w : WaitFor} {n : Nat} : a.Keeps (s.loadWait i w n) := h.onSteep
theorem startFill (h : a.Keeps s) {i : Fin 4} : a.Keeps (s.startFill i) := by
  unfold State.startFill
  exact h.steepSend.steepSend.waterSet.fanStop.loadWait.steepTo.levelNow
theorem startDrain (h : a.Keeps s) {i : Fin 4} : a.Keeps (s.startDrain i) := by
  unfold State.startDrain
  exact h.steepSend.fanStop.loadWait.steepTo.levelNow
theorem startRest (h : a.Keeps s) {i : Fin 4} : a.Keeps (s.startRest i) := h.fanRun.onSteep.steepTo

theorem startSteepPhase (h : a.Keeps s) {i : Fin 4} {n : Nat} {f : SteepPhase} : a.Keeps (s.startSteepPhase i n f) := by
  unfold State.startSteepPhase
  dsimp only
  split
  · exact h.onSteep.startFill
  · exact h.onSteep.startDrain
  · exact h.onSteep.startRest

theorem steepProgramEnds (h : a.Keeps s) {i : Fin 4} : a.Keeps (s.steepProgramEnds i) := by
  unfold State.steepProgramEnds
  dsimp only
  split
  · split
    · exact h.onSteep.steepTo.onSlot.postRequest
    · exact h.onSteep.steepTo.postRequest
  · exact h.onSteep.steepTo.postRequest

theorem steepPhaseEnds (h : a.Keeps s) {i : Fin 4} : a.Keeps (s.steepPhaseEnds i) := by
  unfold State.steepPhaseEnds
  dsimp only
  split
  · exact h.startSteepPhase
  · exact h.steepProgramEnds

theorem steepBegin (h : a.Keeps s) {i : Fin 4} : a.Keeps (s.steepBegin i) := by
  unfold State.steepBegin
  split
  · exact h.startSteepPhase
  · exact h.onSteep.postPhase

theorem steepHandover (h : a.Keeps s) {i : Fin 4} : a.Keeps (s.steepHandover i) := by
  unfold State.steepHandover
  split
  · exact h.steepBegin
  · exact h.steepTo

theorem startWeighing (h : a.Keeps s) {i : Fin 4} : a.Keeps (s.startWeighing i) := h.onSteep.loadWait

theorem afterWeighing (h : a.Keeps s) {i : Fin 4} : a.Keeps (s.afterWeighing i) := by
  unfold State.afterWeighing
  split
  · split
    · exact h.steepProgramEnds
    · exact h.steepPhaseEnds
  · exact h.steepPhaseEnds

theorem steepMass (h : a.Keeps s) {i : Fin 4} {x : Int} : a.Keeps (s.steepMass i x) := by
  unfold State.steepMass
  dsimp only
  split
  · split
    · exact h.onSteep.restWeighing.afterWeighing
    · exact h
  · exact h

theorem steepPhaseExpires (h : a.Keeps s) {i : Fin 4} : a.Keeps (s.steepPhaseExpires i) := by
  unfold State.steepPhaseExpires
  dsimp only
  split
  · split
    · split
      · exact h.onSteep.steepSend.steepPhaseEnds
      · exact h.onSteep.steepPhaseEnds
    · split
      · exact h.onSteep.startWeighing.steepTo
      · exact h.onSteep.steepPhaseEnds
    · exact h.onSteep.steepPhaseEnds
    all_goals exact h.onSteep
  · exact h

theorem steepTimeout (h : a.Keeps s) {i : Fin 4} {w : WaitFor} {c : FaultCode} : a.Keeps (s.steepTimeout i w c) := by
  unfold State.steepTimeout
  split
  · exact h.onSteep.vesselFault
  · exact h

theorem steepSettled (h : a.Keeps s) {i : Fin 4} : a.Keeps (s.steepSettled i) := by
  unfold State.steepSettled
  split
  · exact h.loadWait
  · exact h

theorem steepOff (h : a.Keeps s) {i : Fin 4} : a.Keeps (s.steepOff i) :=
  h.steepCloseOpen.sendTo.sendTo.onSteep.discardWaiting

theorem steepAuto (h : a.Keeps s) {i : Fin 4} : a.Keeps (s.steepAuto i) := by
  unfold State.steepAuto
  dsimp only
  split
  · exact h
  · exact h
  · exact h.postRequest
  · exact h.steepBegin
  · exact h.startFill
  · exact h.steepSend.aerate.waterSet.fanStop
  · split
    · exact h.steepSend.fanStop
    · exact h.startDrain
  · exact h.fanRun
  · exact h.startWeighing

theorem steepEmpty (h : a.Keeps s) {i : Fin 4} : a.Keeps (s.steepEmpty i) := h.onSteep.steepTo

theorem steepCastBack (h : a.Keeps s) {i : Fin 4} : a.Keeps (s.steepCastBack i) := by
  unfold State.steepCastBack
  dsimp only
  split
  · exact h.steepTo.postRequest
  · exact h.steepTo

theorem steepRetry (h : a.Keeps s) {i : Fin 4} : a.Keeps (s.steepRetry i) := by
  unfold State.steepRetry
  split
  · exact h.steepBegin
  · exact h

/-! ## Comparators, stage high limits and the watch (R31 to R41) -/

theorem tellOwner (h : a.Keeps s) {t : Told} : a.Keeps (s.tellOwner t) := by
  unfold State.tellOwner
  split
  · split <;> split_ifs
    · exact h.co2Refresh
    · exact h
    · exact h.raiseDemand
    · exact h
    · exact h.onKiln
    · exact h.retakeThermal
    · exact h
  all_goals exact h

theorem tellAll (h : a.Keeps s) {ts : List Told} : a.Keeps (s.tellAll ts) := h.foldl (fun _ _ h => h.tellOwner) _

theorem endSettling (h : a.Keeps s) {n : Nat} {e : MpEntry} {r : Level} {v : Int} : a.Keeps (s.endSettling n e r v).1 := by
  unfold State.endSettling
  dsimp only
  split
  · exact h.onLive
  · exact h.onLive.postLimit

theorem compare (h : a.Keeps s) {n : Nat} {e : MpEntry} {v : Int} : a.Keeps (s.compare n e v) := by
  unfold State.compare
  dsimp only
  split
  · exact h
  · split
    · exact h
    · exact h.onLive.postLimit.tellOwner
  · split
    · exact h.onLive
    · exact h.endSettling.tellOwner

theorem limitChange (h : a.Keeps s) {n : Nat} {e : MpEntry} : a.Keeps (s.limitChange n e).1 := by
  unfold State.limitChange
  dsimp only
  split
  · split
    · exact h.onLive.endSettling
    · simpa only using h.onLive
  · simpa only using h.onLive

theorem postClosed (h : a.Keeps s) {n : Nat} {l : MpLive} : a.Keeps (s.postClosed n l) := by
  unfold State.postClosed
  split
  · exact h.postLimit
  · exact h.postLimit
  all_goals exact h

theorem relimit (h : a.Keeps s) {n : Nat} {e : MpEntry} {old new : Limits} : a.Keeps (s.relimit n e old new).1 := by
  unfold State.relimit
  split_ifs
  · exact h
  · exact h.limitChange
  · exact h.onLive.postClosed
  · exact h

theorem setStageHigh (h : a.Keeps s) {n : Nat} {x : Option Int} : a.Keeps (s.setStageHigh n x) := by
  unfold State.setStageHigh
  split
  · exact h.onLive.relimit.tellAll
  · exact h

theorem setStageHighs (h : a.Keeps s) {v : Fin 12} {r : Role → Bool} {x : Option Int} :
    a.Keeps (s.setStageHighs v r x) := h.foldl (fun _ _ h => h.setStageHigh) _

theorem tellBlind (h : a.Keeps s) {v : Fin 12} {b : Bool} : a.Keeps (s.tellBlind v b) := by
  unfold State.tellBlind
  split
  · split
    · exact h.kilnBlinded
    · exact h.kilnSees
  all_goals exact h

theorem clearBlind (h : a.Keeps s) {v : Fin 12} {n : Nat} : a.Keeps (s.clearBlind v n) := by
  unfold State.clearBlind
  split
  · exact h.onVessel.postVessel.tellBlind
  · exact h

theorem watchSample (h : a.Keeps s) {v : Fin 12} {n : Nat} : a.Keeps (s.watchSample v n) := by
  unfold State.watchSample
  split
  · exact h
  · exact h.loadWatch.clearBlind

theorem watchExpires (h : a.Keeps s) {v : Fin 12} : a.Keeps (s.watchExpires v) := by
  unfold State.watchExpires
  split
  · exact h.onVessel.postVessel.tellBlind
  · exact h

theorem stopWatch (h : a.Keeps s) {v : Fin 12} : a.Keeps (s.stopWatch v) := h.onVessel.clearBlind

theorem rewatch (h : a.Keeps s) {old : Tbl MpEntry} {v : Fin 12} : a.Keeps (s.rewatch old v) := by
  unfold State.rewatch
  split
  · exact h
  · split
    · exact h.stopWatch
    · exact h.loadWatch
    · exact h

theorem recreateMp (h : a.Keeps s) {n : Nat} {x : Option MpEntry} : a.Keeps (s.recreateMp n x) := h.postClosed.onIntake

theorem commitMpEntry (h : a.Keeps s) {t : Tbl MpEntry} {n : Nat} : a.Keeps (s.commitMpEntry t n).1 := by
  unfold State.commitMpEntry
  split
  · exact h
  · split
    · unfold State.keepMp
      dsimp only
      split
      · exact h.onLive.relimit
      · exact h.relimit
    · exact h.recreateMp (n := n)
  · exact h.recreateMp (n := n)

theorem commitMpEntries (h : a.Keeps s) {t : Tbl MpEntry} (l : List Nat) : a.Keeps (s.commitMpEntries t l).1 := by
  induction l generalizing s with
  | nil => exact h
  | cons n l ih => exact ih h.commitMpEntry

theorem commitMp (h : a.Keeps s) {new : Tbl MpEntry} : a.Keeps (s.commitMp new) := by
  have htab : a.Keeps (s.onTables fun t => { t with mp := new }) := ⟨h.heat, h.queue, h.notices⟩
  exact (((Keeps.tellAll (htab.commitMpEntries _)).foldl (fun _ _ h => h.co2Refresh) _).foldl
    (fun _ _ h => h.retakeThermal) _).foldl (fun _ _ h => h.rewatch) _

/-! ## Compartments (R63 to R72) -/

theorem compSend (h : a.Keeps s) {c : Fin 6} {st : CompCfg → Nat} {code : Nat} : a.Keeps (s.compSend c st code) :=
  h.sendTo
theorem compSendArg (h : a.Keeps s) {c : Fin 6} {st : CompCfg → Nat} {code : Nat} {x : Int} :
    a.Keeps (s.compSendArg c st code x) := h.sendArgTo
theorem compTo (h : a.Keeps s) {c : Fin 6} {p : CompState} : a.Keeps (s.compTo c p) := h.onComp.postPhase

theorem spreadTest (h : a.Keeps s) {c : Fin 6} : a.Keeps (s.spreadTest c) := by
  unfold State.spreadTest
  split
  · split
    · exact h.raiseDemand
    · exact h
  · exact h

theorem offerAir (h : a.Keeps s) {c : Fin 6} : a.Keeps (s.offerAir c) := by
  unfold State.offerAir
  split
  · exact h.compSendArg.compSend.compSendArg
  · exact h

theorem startGermStage (h : a.Keeps s) {c : Fin 6} {n : Nat} {f : GermStage} : a.Keeps (s.startGermStage c n f) := by
  unfold State.startGermStage
  dsimp only
  split
  · exact h.onComp.compTo.setStageHighs.onComp.offerAir.spreadTest
  · exact h.onComp.compTo.setStageHighs.onComp.spreadTest

theorem germBegin (h : a.Keeps s) {c : Fin 6} : a.Keeps (s.germBegin c) := by
  unfold State.germBegin
  split
  · exact h.startGermStage
  · exact h.onComp.compTo.setStageHighs

theorem compHandover (h : a.Keeps s) {c : Fin 6} : a.Keeps (s.compHandover c) := h.onComp.germBegin

theorem germRetry (h : a.Keeps s) {c : Fin 6} : a.Keeps (s.germRetry c) := by
  unfold State.germRetry
  split
  · exact h.germBegin
  · exact h

theorem germEnds (h : a.Keeps s) {c : Fin 6} : a.Keeps (s.germEnds c) := by
  unfold State.germEnds
  dsimp only
  split
  · exact h.compTo.onComp.postRequest
  · exact h.compTo.onComp

theorem stageExpires (h : a.Keeps s) {c : Fin 6} : a.Keeps (s.stageExpires c) := by
  unfold State.stageExpires
  dsimp only
  split
  · split
    · exact h.onComp.startGermStage
    · exact h.onComp.germEnds
  · exact h

theorem intervalExpires (h : a.Keeps s) {c : Fin 6} : a.Keeps (s.intervalExpires c) := by
  unfold State.intervalExpires
  split
  · exact h.onComp.raiseDemand
  · exact h

theorem compEmpty (h : a.Keeps s) {c : Fin 6} : a.Keeps (s.compEmpty c) := h.onComp.compTo.setStageHighs

theorem compBack (h : a.Keeps s) {c : Fin 6} : a.Keeps (s.compBack c) := by
  unfold State.compBack
  dsimp only
  split
  · exact h.compTo.postRequest
  · exact h.compTo

theorem compOff (h : a.Keeps s) {c : Fin 6} : a.Keeps (s.compOff c) := h.sendTo.onComp.discardWaiting

theorem compAuto (h : a.Keeps s) {c : Fin 6} : a.Keeps (s.compAuto c) := by
  unfold State.compAuto
  dsimp only
  split
  · split
    · exact h.offerAir.turnerArbiter
    · exact h.turnerArbiter
  · exact h.postRequest.turnerArbiter
  all_goals exact h.turnerArbiter

/-! ## Kilns (R92 to R100, R112 to R114) -/

theorem kilnTo (h : a.Keeps s) {k : Fin 2} {p : KilnState} : a.Keeps (s.kilnTo k p) := h.onKiln.postPhase
theorem offerKilnAir (h : a.Keeps s) {k : Fin 2} {f : KilnStage} : a.Keeps (s.offerKilnAir k f) :=
  h.kilnSendArg.kilnSend.kilnSendArg

theorem offerStage (h : a.Keeps s) {k : Fin 2} {f : KilnStage} : a.Keeps (s.offerStage k f) := by
  unfold State.offerStage
  dsimp only
  split
  · exact h.offerKilnAir.offerBurner.offerPeat
  · exact h.offerKilnAir.kilnSendArg

/-- A stage's own grant, taken with the phase state it computes. -/
theorem kilnTo_changeGrant (h : a.Keeps s) {k : Fin 2} {p : KilnState} {f : KilnStage} :
    a.Keeps ((s.kilnTo k p).changeGrant k (s.grantFor k f).2) :=
  Keeps.changeGrant h.kilnTo fun _ => by
    rw [State.kilnTo_budget, State.kilnTo_kiln_other]
    exact s.grantFor_le k f

theorem startKilnStage (h : a.Keeps s) {k : Fin 2} {n : Nat} {f : KilnStage} : a.Keeps (s.startKilnStage k n f) := by
  unfold State.startKilnStage
  dsimp only
  split
  · exact h.onKiln.setStageHighs.onKiln.kilnTo_changeGrant.evalGate.offerStage
  · exact h.onKiln.setStageHighs.onKiln.kilnTo.evalGate

theorem offerCooling (h : a.Keeps s) {k : Fin 2} : a.Keeps (s.offerCooling k) := h.kilnSend.kilnSend.kilnSendArg

theorem kilnCools (h : a.Keeps s) {k : Fin 2} : a.Keeps (s.kilnCools k) := by
  unfold State.kilnCools
  dsimp only
  split
  · exact h.onKiln.kilnTo.changeGrant_zero.onKiln.evalGate.onKiln.offerCooling
  · exact h.onKiln.kilnTo.changeGrant_zero.onKiln.evalGate.onKiln

theorem kilnStageEnds (h : a.Keeps s) {k : Fin 2} : a.Keeps (s.kilnStageEnds k) := by
  unfold State.kilnStageEnds
  dsimp only
  split
  · exact h.startKilnStage
  · exact h.kilnCools

theorem endTest (h : a.Keeps s) {k : Fin 2} : a.Keeps (s.endTest k) := by
  unfold State.endTest
  split
  · split
    · exact h.kilnStageEnds
    · exact h
  · exact h

theorem endTestOf (h : a.Keeps s) {k : Fin 2} {e : EndKind} : a.Keeps (s.endTestOf k e) := by
  unfold State.endTestOf
  split
  · exact h.endTest
  · exact h

theorem limitEnds (h : a.Keeps s) {k : Fin 2} : a.Keeps (s.limitEnds k) := by
  unfold State.limitEnds
  dsimp only
  split
  · split
    · exact h.postVessel.onKiln.vesselFault
    · exact h.postVessel.kilnStageEnds
  · exact h

theorem evalRing (h : a.Keeps s) {k : Fin 2} {f : KilnStage} : a.Keeps (s.evalRing k f) := by
  unfold State.evalRing
  dsimp only
  split
  · exact h.onKiln.onKiln.postVessel.endTestOf.ite h.onKiln
  · exact h

theorem takeBreakPoint (h : a.Keeps s) {k : Fin 2} : a.Keeps (s.takeBreakPoint k) := by
  unfold State.takeBreakPoint
  dsimp only
  split
  · split
    · exact h.onKiln.onKiln.evalRing
    · exact h.onKiln.onKiln
    · exact h.onKiln.onKiln
  · exact h

theorem takeDuePoints (h : a.Keeps s) {k : Fin 2} : a.Keeps (s.takeDuePoints k) :=
  h.foldl (fun _ _ h => h.takeBreakPoint) _

theorem minimumTest (h : a.Keeps s) {k : Fin 2} : a.Keeps (s.minimumTest k) := by
  unfold State.minimumTest
  split
  · exact h.onKiln.endTest
  · exact h

theorem kilnMinimum (h : a.Keeps s) {k : Fin 2} : a.Keeps (s.kilnMinimum k) := by
  unfold State.kilnMinimum
  split
  · exact h.takeDuePoints.minimumTest
  · exact h

theorem kilnMaximum (h : a.Keeps s) {k : Fin 2} : a.Keeps (s.kilnMaximum k) := by
  unfold State.kilnMaximum
  dsimp only
  have hdue : a.Keeps (s.takeDuePoints k) := h.takeDuePoints
  exact ((hdue.onKiln.endTest.ite hdue).limitEnds.ite (hdue.onKiln.endTest.ite hdue)).ite h

theorem coolExpires (h : a.Keeps s) {k : Fin 2} : a.Keeps (s.coolExpires k) := by
  unfold State.coolExpires
  dsimp only
  split_ifs
  · exact h.onKiln.kilnSend.kilnTo.postRequest
  · exact h.onKiln.kilnSend.kilnTo
  · exact h

theorem kilnBegin (h : a.Keeps s) {k : Fin 2} : a.Keeps (s.kilnBegin k) := by
  unfold State.kilnBegin
  split
  · exact h.startKilnStage
  · exact h.onKiln.kilnTo.changeGrant_zero.setStageHighs.evalGate

theorem kilnHandover (h : a.Keeps s) {k : Fin 2} : a.Keeps (s.kilnHandover k) := h.onKiln.kilnBegin

theorem kilnRetry (h : a.Keeps s) {k : Fin 2} : a.Keeps (s.kilnRetry k) := by
  unfold State.kilnRetry
  split
  · exact h.kilnBegin
  · exact h

theorem kilnEmpty (h : a.Keeps s) {k : Fin 2} : a.Keeps (s.kilnEmpty k) :=
  h.onKiln.kilnTo.setStageHighs.changeGrant_zero.onKiln.evalGate

theorem kilnBack (h : a.Keeps s) {k : Fin 2} : a.Keeps (s.kilnBack k) := by
  unfold State.kilnBack
  dsimp only
  split
  · exact h.kilnTo.postRequest
  · exact h.kilnTo

theorem kilnMoisture (h : a.Keeps s) {k : Fin 2} : a.Keeps (s.kilnMoisture k) := h.endTestOf.evalGate

theorem kilnPeat (h : a.Keeps s) {k : Fin 2} {v : Int} : a.Keeps (s.kilnPeat k v) := by
  unfold State.kilnPeat
  dsimp only
  split
  · split
    · exact h.onKiln.onSlot.onKiln
    · exact h.onKiln.onKiln
  · exact h.onKiln

theorem kilnOff (h : a.Keeps s) {k : Fin 2} : a.Keeps (s.kilnOff k) :=
  (h.setGrant fun _ => Nat.zero_le _).onKiln.setGate.sendTo.sendTo.discardWaiting

theorem kilnAuto (h : a.Keeps s) {k : Fin 2} : a.Keeps (s.kilnAuto k) := by
  have hgrant {f : KilnStage} : a.Keeps (s.changeGrant k (s.grantFor k f).2) := h.changeGrant fun _ => s.grantFor_le k f
  unfold State.kilnAuto
  dsimp only
  split
  · split_ifs
    · exact h
    · exact h.kilnTo_changeGrant.evalGate.offerKilnAir.offerBurner
    · exact h.changeGrant_zero.offerKilnAir
  · split_ifs
    · exact h.kilnCools
    · exact hgrant.offerStage.endTest
    · exact h.kilnTo.changeGrant_zero.evalGate
  · exact h.offerCooling
  · exact h.postRequest
  · exact h

end State.Keeps
end Sys2Proof.Machine
end

section
/-! PROOFS. The transfer run, the links, the requests and the resets keep the bounds (chapters 6, 7, 9 to 11), and with them
every step. -/

namespace Sys2Proof.Machine

-- One declaration after the other: side by side, their stacks are more than the check's bound on memory.
set_option Elab.async false

theorem Tables.take_config {id : Nat} (h : id ≠ 1) (t u : Tables) : (t.take u id).config = t.config := by
  unfold Tables.take
  split
  · exact absurd rfl h
  all_goals rfl

theorem State.cleared_kiln (s : State) (k : Fin 2) : s.cleared.kiln k = {} := by
  simp [State.cleared, State.kiln, bank]

namespace State.Keeps
variable {a s : State}

/-! ## The transfer run (R121 to R132) -/

theorem offerRoutes (h : a.Keeps s) (l : List RouteStep) : a.Keeps (s.offerRoutes l).1 := by
  induction l generalizing s with
  | nil => exact h
  | cons r l ih => exact ih h.sendArg

theorem offerDraw (h : a.Keeps s) {r : Running} : a.Keeps (s.offerDraw r) := h.onRun.sendTo

theorem drawTest (h : a.Keeps s) : a.Keeps s.drawTest := by
  unfold State.drawTest
  split
  · split
    · exact h.offerDraw.ite h
    · exact h
  · exact h

theorem runTo (h : a.Keeps s) {st : TransferState} {f : Running → Running} : a.Keeps (s.runTo st f) := by
  unfold State.runTo
  dsimp only
  split
  · exact h.onRun.postTransfer
  · exact h.onRun

theorem enterRunning (h : a.Keeps s) : a.Keeps s.enterRunning := h.runTo.onRun.drawTest
theorem enterClearing (h : a.Keeps s) : a.Keeps s.enterClearing := h.runTo.drawTest

theorem emptyTest (h : a.Keeps s) {x : Int} : a.Keeps (s.emptyTest x) := by
  unfold State.emptyTest
  split
  · exact h.enterClearing.ite h
  · exact h

theorem batchOutcome (h : a.Keeps s) {r : Running} {b : Bool} : a.Keeps (s.batchOutcome r b) := by
  have hleft : a.Keeps (match s.batchAt r.source with
      | some (n, _) => s.onSlot n fun x =>
        if b then { x.enters r.kind.arrived s.timeNow with vessel := r.dest.val } else x.enters r.kind.held s.timeNow
      | none => s) := by
    split
    · exact h.onSlot
    · exact h
  unfold State.batchOutcome
  dsimp only
  cases vesselOf r.dest.val with
  | some v => exact hleft.clearInteg.clearInteg
  | none => exact hleft.clearInteg

theorem vesselEmpties (h : a.Keeps s) {v : Fin 12} : a.Keeps (s.vesselEmpties v) := by
  unfold State.vesselEmpties
  split
  · exact h.steepEmpty
  · exact h.compEmpty
  · exact h.kilnEmpty

theorem vesselReceives (h : a.Keeps s) {v : Fin 12} : a.Keeps (s.vesselReceives v) := by
  unfold State.vesselReceives
  split
  · exact h
  · exact h.compHandover
  · exact h.kilnHandover

theorem vesselKeeps (h : a.Keeps s) {v : Fin 12} : a.Keeps (s.vesselKeeps v) := by
  unfold State.vesselKeeps
  split
  · exact h.steepCastBack
  · exact h.compBack
  · exact h.kilnBack

theorem tellEnd (h : a.Keeps s) {r : Running} {b : Bool} : a.Keeps (s.tellEnd r b) := by
  unfold State.tellEnd
  dsimp only
  cases vesselOf r.dest.val with
  | some v => exact h.vesselReceives.vesselEmpties.ite h.vesselKeeps.vesselEmpties
  | none => exact h.vesselEmpties.ite h.vesselKeeps

theorem runIdle (h : a.Keeps s) : a.Keeps s.runIdle := h.onTransfer.emit

theorem offerStops (h : a.Keeps s) {p : Purpose} (l : List RouteLeg) : a.Keeps (s.offerStops p l).1 := by
  induction l generalizing s with
  | nil => exact h
  | cons x l ih => exact ih h.send

theorem transferDone (h : a.Keeps s) {r : Running} : a.Keeps (s.transferDone r) := by
  have hmark {t : State} (ht : a.Keeps t) : a.Keeps (match t.batchAt r.source with
      | some (n, _) => t.onSlot n fun b => { b with marks := { b.marks with massDeviation := true } }
      | none => t) := by
    split
    · exact ht.onSlot
    · exact ht
  unfold State.transferDone
  dsimp only
  have hstops := offerStops (p := .stopDone r.source) (h.onRun (f := fun r => { r with state := .done, runOn := none }))
    r.route
  exact ((hmark hstops).ite hstops).writeTransferEntry.releaseEntries.closeEvent.onTransfer.batchOutcome.tellEnd.postTransfer
    |>.runIdle

theorem doneTest (h : a.Keeps s) : a.Keeps s.doneTest := by
  unfold State.doneTest
  split
  · exact h.transferDone.ite h
  · exact h

theorem abortDone (h : a.Keeps s) {r : Running} : a.Keeps (s.abortDone r) := by
  have hmark : a.Keeps (match s.batchAt r.source with
      | some (n, _) => s.onSlot n fun b => { b with marks := { b.marks with disturbed := true } }
      | none => s) := by
    split
    · exact h.onSlot
    · exact h
  unfold State.abortDone
  dsimp only
  refine Keeps.emit ?_
  have hend {e : Entry} {b : Bool} {v : Int} :=
    (hmark.writeTransferEntry (e := e)).releaseEntries.closeEvent (b := false) |>.onTransfer
      (f := fun t => { t with reserved := none }) |>.batchOutcome (r := r) (b := b) |>.tellEnd (r := r) (b := b)
      |>.postTransfer (v := r.source) (st := .aborted) (x := v) |>.onTransfer (f := fun t => { t with running := none })
  split
  · exact hend.endLong.ite hend
  · exact hend

theorem abortTest (h : a.Keeps s) : a.Keeps s.abortTest := by
  unfold State.abortTest
  split
  · exact h.abortDone.ite h
  · exact h

theorem abortRun (h : a.Keeps s) {c : AbortCause} : a.Keeps (s.abortRun c) := by
  unfold State.abortRun
  dsimp only
  split
  · split
    any_goals exact (offerStops h.onRun _).onRun.abortTest
    all_goals exact h
  · exact h

theorem stopReported (h : a.Keeps s) {r : Report} {n : Nat} : a.Keeps (s.stopReported r n) := h.onRun.abortTest

theorem drawComplete (h : a.Keeps s) : a.Keeps s.drawComplete := by
  unfold State.drawComplete
  split
  · split
    · split
      · split
        · have hentry {e : Entry} := (h.onRun (f := fun r => { r with draw := none, left := r.left - 1, out := none }))
            |>.writeTransferEntry (e := e) |>.closeEvent (b := false)
          dsimp only
          split
          · exact hentry.onSlot.post.drawTest.doneTest
          · exact hentry.post.drawTest.doneTest
        · exact h
      · exact h
    · exact h
  · exact h

theorem drawerReports (h : a.Keeps s) {v : Int} : a.Keeps (s.drawerReports v) := by
  unfold State.drawerReports
  split
  · exact h.abortRun.ite (h.onRun.drawComplete.ite h)
  · exact h

theorem drawReported (h : a.Keeps s) {r : Report} {n : Nat} : a.Keeps (s.drawReported r n) := by
  unfold State.drawReported
  split
  · split
    · split
      · exact h.onRun.drawComplete
      · exact h.abortRun
      all_goals exact h
    · exact h
  · exact h

theorem routeReported (h : a.Keeps s) {r : Report} {n : Nat} : a.Keeps (s.routeReported r n) := by
  unfold State.routeReported
  split
  · split
    · split
      · exact h.onRun.enterRunning.ite h.onRun
      · exact h.abortRun
      all_goals exact h
    · exact h
  · exact h

theorem weigherTotal (h : a.Keeps s) {v : Int} : a.Keeps (s.weigherTotal v) := by
  unfold State.weigherTotal
  dsimp only
  split
  · exact (h.onRun.onRun.drawTest.ite h.onRun).ite h
  · exact h.ite h.emit

theorem tellStart (h : a.Keeps s) {v : Fin 12} {d : Fin 13} : a.Keeps (s.tellStart v d) := by
  have hsource : a.Keeps (match vesselIs v with
      | .steep i => s.steepTo i .casting
      | .comp c => s.compTo c .unloading
      | .kiln k => (s.kilnTo k .stripping).evalGate k) := by
    split
    · exact h.steepTo
    · exact h.compTo
    · exact h.kilnTo.evalGate
  unfold State.tellStart
  dsimp only
  cases (vesselOf d.val).map vesselIs with
  | none => exact hsource
  | some x => cases x with
    | steep i => exact hsource
    | comp c => exact hsource.compTo
    | kiln k => exact hsource.kilnTo.evalGate

theorem startTransfer (h : a.Keeps s) {q : TransferReq} {d : Fin 13} : a.Keeps (s.startTransfer q d) := by
  unfold State.startTransfer
  dsimp only
  split
  · refine Keeps.onRun (offerRoutes ?_ _)
    exact h.reserveEntries.onTransfer.postTransfer.tellStart.onSlot.writeTransferEntry.onExcise.closeEvent.onRun
  · exact h

theorem scan (h : a.Keeps s) : a.Keeps s.scan := by
  unfold State.scan
  split
  · exact h
  · split
    · exact h.startTransfer
    · exact h

theorem routeExpires (h : a.Keeps s) : a.Keeps s.routeExpires := by
  unfold State.routeExpires
  split
  · exact h.abortRun.ite h
  · exact h

theorem noFlowExpires (h : a.Keeps s) : a.Keeps s.noFlowExpires := by
  unfold State.noFlowExpires
  split
  · exact h.runTo.ite h
  · exact h

theorem runOnExpires (h : a.Keeps s) : a.Keeps s.runOnExpires := by
  unfold State.runOnExpires
  split
  · exact h.onRun.doneTest.ite h
  · exact h

theorem drawExpires (h : a.Keeps s) : a.Keeps s.drawExpires := by
  unfold State.drawExpires
  split
  · exact h.abortRun.ite h
  · exact h

theorem resumeRun (h : a.Keeps s) : a.Keeps s.resumeRun := by
  unfold State.resumeRun
  dsimp only
  split
  · split
    · exact h.runTo.onRun.enterClearing.ite h.runTo.onRun.drawTest
    · exact h.runTo.onRun.drawTest
  · exact h.runTo.onRun

/-! ## Modes (R45) -/

theorem leaveForOff (h : a.Keeps s) {v : Fin 12} : a.Keeps (s.leaveForOff v) := by
  unfold State.leaveForOff
  split
  · exact h.steepOff
  · exact h.compOff
  · exact h.kilnOff

theorem enterAuto (h : a.Keeps s) {v : Fin 12} : a.Keeps (s.enterAuto v) := by
  unfold State.enterAuto
  split
  · exact h.steepAuto
  · exact h.compAuto
  · exact h.kilnAuto

theorem modeTo (h : a.Keeps s) {v : Fin 12} {m : Mode} : a.Keeps (s.modeTo v m) := h.onVessel.postVessel

theorem steepWakes (h : a.Keeps s) {v : Fin 12} : a.Keeps (s.steepWakes v) := by
  unfold State.steepWakes
  split
  · exact h.co2Refresh
  all_goals exact h

theorem wakeWatch (h : a.Keeps s) {v : Fin 12} : a.Keeps (s.wakeWatch v) := h.loadWatch.ite h

theorem modeOff (h : a.Keeps s) {v : Fin 12} : a.Keeps (s.modeOff v) := by
  unfold State.modeOff
  dsimp only
  split
  · exact h.leaveForOff.modeTo.stopWatch.regrant.ite h.leaveForOff.modeTo.stopWatch
  all_goals exact h.leaveForOff.modeTo.stopWatch

theorem modeOn (h : a.Keeps s) {v : Fin 12} {m : Mode} : a.Keeps (s.modeOn v m) := by
  have hwake := h.modeTo (v := v) (m := m) |>.wakeWatch (v := v) |>.steepWakes (v := v) |>.ite
    (c := (s.vessel v).mode = .off) (h.modeTo (v := v) (m := m))
  have henter := hwake.leaveAuto (v := v) |>.ite (c := (s.vessel v).mode = .auto)
    (hwake.enterAuto (v := v) |>.ite (c := m = .auto) hwake)
  exact henter.emit.ite henter

theorem applyMode (h : a.Keeps s) {v : Fin 12} {m : Mode} : a.Keeps (s.applyMode v m) := by
  unfold State.applyMode
  dsimp only
  have hclear {t : State} (ht : a.Keeps t) {c : Prop} [Decidable c] :
      a.Keeps (if c then t else if m = .off then t.modeOff v else t.modeOn v m) := ht.ite (ht.modeOff.ite ht.modeOn)
  cases vesselIs v with
  | steep i => exact hclear h.onVessel
  | comp c => exact hclear h.onVessel.onComp
  | kiln k => exact hclear h.onVessel

theorem abandonVessel (h : a.Keeps s) {v : Fin 12} : a.Keeps (s.abandonVessel v) :=
  h.applyMode.vesselEmpties.onTransfer.clearInteg

/-! ## Events -/

theorem takeReport (h : a.Keeps s) {r : Report} {p : Purpose} {n : Nat} : a.Keeps (s.takeReport r p n) := by
  unfold State.takeReport
  split
  · exact h.vesselFault.ite h
  · split
    · exact h.driveFailed
    · exact h.driveAccepted
    all_goals exact h
  · exact h.routeReported
  · exact h.drawReported
  · exact h.postTransfer.ite h
  · exact h.stopReported

theorem takeEvent (h : a.Keeps s) {e : Event} : a.Keeps (s.takeEvent e) := by
  cases e with
  | report => exact h.takeReport
  | scan => exact h.scan
  | storeFault => exact h.abortRun

theorem takeEvents (h : a.Keeps s) (n : Nat) : a.Keeps (s.takeEvents n) := by
  induction n generalizing s with
  | zero => exact h
  | succ n ih =>
    unfold State.takeEvents
    split
    · exact h
    · exact ih h.withWork.takeEvent

theorem settle (h : a.Keeps s) : a.Keeps s.settle := h.takeEvents _

/-! ## Samples (R26 to R30) -/

theorem runEmptyTest (h : a.Keeps s) {v : Fin 12} {r : Role} {x : Int} : a.Keeps (s.runEmptyTest v r x) := by
  unfold State.runEmptyTest
  split
  · exact h.emptyTest.ite h
  · exact h

theorem humidity (h : a.Keeps s) {v : Fin 12} {x : Int} : a.Keeps (s.humidity v x) := by
  unfold State.humidity
  dsimp only
  split
  · exact h.dryAttempt.kilnMoisture.ite h.dryAttempt
  all_goals exact h.dryAttempt

theorem deliverVessel (h : a.Keeps s) {v : Fin 12} {r : Role} {x : Int} : a.Keeps (s.deliverVessel v r x) := by
  unfold State.deliverVessel
  split
  · exact h.levelCheck.ite (h.steepMass.ite h)
  · exact h.spreadTest.ite (h.humidity.ite h)
  · split
    · exact h.endTestOf
    · exact h.onKiln
    · exact h.kilnPeat
    · exact h.humidity
    · exact h

theorem deliver (h : a.Keeps s) {n : Nat} {e : MpEntry} {v : MpValue} : a.Keeps (s.deliver n e v) := by
  unfold State.deliver
  split
  · exact h
  · split
    · exact h.deliverVessel.runEmptyTest
    · split
      · exact h.turnerEncoder
      · exact h.turnerReport
      · exact h
    · split
      · exact h.weigherTotal
      · exact h.drawerReports
      · exact h
    · exact h

theorem watchDelivery (h : a.Keeps s) {n : Nat} {e : MpEntry} : a.Keeps (s.watchDelivery n e) := by
  unfold State.watchDelivery
  split
  · exact h.watchSample
  · exact h

theorem takeMapped (h : a.Keeps s) {n : Nat} {e : MpEntry} {x : SampleEntry} : a.Keeps (s.takeMapped n e x) := by
  unfold State.takeMapped
  dsimp only
  split
  · exact h.onLive.compare.deliver.watchDelivery
  · exact h.onLive

theorem takeEntry (h : a.Keeps s) {st : Nat} {x : SampleEntry} : a.Keeps (s.takeEntry st x) := by
  unfold State.takeEntry
  split
  · exact h.takeMapped.settle
  · exact h.onIntake

theorem takeSample (h : a.Keeps s) {src seq : Nat} {p : List Byte} : a.Keeps (s.takeSample src seq p) := by
  unfold State.takeSample
  dsimp only
  have hall : a.Keeps ((sampleEntries p).foldl (fun s x => s.takeEntry src x) s) := h.foldl (fun _ _ h => h.takeEntry) _
  exact hall.forward.ite hall

theorem staleCheck (h : a.Keeps s) : a.Keeps s.staleCheck := h.foldl (fun _ _ h => h.onLive) _

/-! ## A tenth of a second -/

theorem tick (h : a.Keeps s) : a.Keeps s.tick := by
  unfold State.tick
  refine Keeps.onExcise (Keeps.onRun ?_)
  refine Keeps.foldl (fun _ _ h => h.onKiln) ?_ _
  refine Keeps.foldl (fun _ _ h => h.onTurner) ?_ _
  refine Keeps.foldl (fun _ _ h => h.onComp) ?_ _
  refine Keeps.foldl (fun _ _ h => h.onSteep) ?_ _
  exact Keeps.foldl (fun _ _ h => h.onVessel) h.onClock.onTrunk _

/-! ## The field line (R169, R174 to R180) -/

theorem putField (h : a.Keeps s) {st k : Nat} {p : List Byte} : a.Keeps (s.putField st k p) := h.onField

theorem answerGood (h : a.Keeps s) {st : Nat} : a.Keeps (s.answerGood st) := by
  unfold State.answerGood
  split
  · exact h.onField.ite h.onField.postStation
  · exact h

theorem answerMissed (h : a.Keeps s) {st n : Nat} : a.Keeps (s.answerMissed st n) := by
  unfold State.answerMissed
  split
  · exact h.onField.postStation.ite h.onField
  · exact h

theorem endWindow (h : a.Keeps s) : a.Keeps s.endWindow := h.settleFlights.onField

theorem sendCommands (h : a.Keeps s) (l : List SendCmd) : a.Keeps (s.sendCommands l) := by
  induction l generalizing s with
  | nil => exact h.endWindow
  | cons c l ih => exact (ih h.putField).ite h.putField.onField

theorem openWindow (h : a.Keeps s) : a.Keeps s.openWindow := h.windowCommands.sendCommands _

theorem overrun (h : a.Keeps s) : a.Keeps s.overrun := h.onField.ite h.onField.post

theorem walk (h : a.Keeps s) {n v : Nat} {l : Option Nat} : a.Keeps (s.walk n l v) := by
  induction n generalizing s v l with
  | zero => exact h.openWindow
  | succ n ih =>
    cases l with
    | none => exact h.openWindow
    | some d =>
      unfold State.walk
      dsimp only
      have hover {c : Prop} [Decidable c] := h.overrun.ite (c := c) h
      split
      · exact (ih hover).ite hover.putField.onField
      · exact ih hover

theorem startCycle (h : a.Keeps s) : a.Keeps s.startCycle := h.onField.staleCheck.walk

theorem mark (h : a.Keeps s) : a.Keeps s.mark := (h.onField.ite h.onField).ite (h.onField.ite h.startCycle)

theorem heldCycle (h : a.Keeps s) : a.Keeps s.heldCycle := h.onField.startCycle.ite h

theorem fieldSample (h : a.Keeps s) {src seq : Nat} {p : List Byte} : a.Keeps (s.fieldSample src seq p) := by
  unfold State.fieldSample
  split
  · exact h.onField.answerGood.takeSample.walk.ite h.onField
  all_goals exact h.onField

theorem sampleArrives (h : a.Keeps s) {src seq : Nat} {p : List Byte} : a.Keeps (s.sampleArrives src seq p) :=
  h.fieldSample.ite h.onField

theorem confirmArrives (h : a.Keeps s) {src tag : Nat} {b : Bool} : a.Keeps (s.confirmArrives src tag b) := by
  unfold State.confirmArrives
  dsimp only
  split
  · exact (h.takeConfirm.settle.sendCommands _).ite h.takeConfirm
  all_goals exact h.takeConfirm

theorem fieldArrives (h : a.Keeps s) {bs : List Byte} : a.Keeps (s.fieldArrives bs) := by
  have hbad : a.Keeps s.fieldBad := h.onField
  unfold State.fieldArrives
  split
  · split
    · refine hbad.ite (h.sampleArrives.ite (Keeps.ite ?_ hbad))
      split
      · exact h.confirmArrives.ite (h.confirmArrives.ite hbad)
      · exact hbad
    · exact hbad
  · exact h.onField

theorem pollExpires (h : a.Keeps s) : a.Keeps s.pollExpires := by
  unfold State.pollExpires
  split
  · exact h.onField.answerMissed.walk
  all_goals exact h

theorem commandExpires (h : a.Keeps s) : a.Keeps s.commandExpires := by
  unfold State.commandExpires
  split
  · exact h.sendCommands _
  all_goals exact h

/-! ## COMMIT (Table 11-5) -/

/-- A change of the committed tables that leaves the configuration. -/
theorem onTables (h : a.Keeps s) {f : Tables → Tables} (hf : (f s.tables).config = s.tables.config) :
    a.Keeps (s.onTables f) :=
  h.trans ⟨State.heatOk_of_eq (fun _ => rfl) (fun _ => rfl) (congrArg ConfigTable.budgetOf hf), id, id⟩

/-- A budget that the present grants keep (R101). -/
theorem commitConfig (h : a.Keeps s) (hok : s.commitConfigOk = .ok) : a.Keeps s.commitConfig := by
  have hsum : s.grantSum ≤ s.staged.config.budgetOf := by
    unfold State.commitConfigOk at hok
    dsimp only at hok
    split_ifs at hok
    omega
  have htake : a.Keeps (s.onTables fun t => t.take s.staged tCONFIG) := h.trans ⟨fun hs => ⟨hsum, hs.2⟩, id, id⟩
  exact (Keeps.foldl (fun _ _ h => h.regrant) htake _).ite htake

theorem commitTable (h : a.Keeps s) {id : Nat} (hok : s.commitOk id = .ok) : a.Keeps (s.commitTable id) := by
  have htake (i : Nat) (hi : i ≠ 1 := by decide) : a.Keeps (s.onTables fun t => t.take s.staged i) :=
    h.onTables (Tables.take_config hi ..)
  unfold State.commitTable
  dsimp only
  split
  · exact h.commitConfig hok
  · unfold State.commitStation
    exact (htake 2).onField
  · exact (htake 3).onField
  · exact h.commitMp
  · exact (htake 6).emit
  · exact (htake 7).foldl (fun _ _ h => h.steepRetry) _
  · exact (htake 8).foldl (fun _ _ h => h.germRetry) _
  · exact (htake 9).foldl (fun _ _ h => h.kilnRetry) _
  · exact (htake 10).emit
  · next hid _ _ _ _ _ _ _ _ => exact htake _ hid

theorem writeChanges (h : a.Keeps s) {id i : Nat} (l : List Nat) : a.Keeps (s.writeChanges id i l) := by
  induction l generalizing s i with
  | nil => exact h
  | cons v l ih => exact ih h.writeEntry

theorem closeLong (h : a.Keeps s) : a.Keeps s.closeLong := h.closeEvent.endLong.ite h.closeEvent

theorem commitExcise (h : a.Keeps s) {id : Nat} : a.Keeps (s.commitExcise id) :=
  ((h.writeChanges _).onExcise.closeLong.emit).ite (h.writeChanges _).onExcise.closeLong

end State.Keeps

/-! ## Requests (Table 11-3) -/

namespace State.Keeps
variable {a s : State}

theorem beginLong (h : a.Keeps s) {o : Originator} {r : Request} {c d : Nat} : a.Keeps (s.beginLong o r c d) := by
  unfold State.beginLong
  exact h.onMgmt

theorem answered (h : a.Keeps s) {x : Option Answered} : a.Keeps (s, x).1 := h

theorem clearCounts (h : a.Keeps s) : a.Keeps s.clearCounts := by
  unfold State.clearCounts
  refine Keeps.onMgmt (Keeps.onField (Keeps.onTrunk (Keeps.onFilter ?_)))
  exact Keeps.foldl (fun _ _ h => h.onTurner) h.onIntake _

theorem startSteep (h : a.Keeps s) {n : Nat} {b : Batch} {i : Fin 4} {kg : Nat} : a.Keeps (s.startSteep n b i kg) :=
  h.writeEntry.closeEvent.onSlot.steepHandover

theorem abandon (h : a.Keeps s) {n : Nat} {b : Batch} {v : Fin 12} : a.Keeps (s.abandon n b v) :=
  h.writeEntry.closeEvent.abandonVessel.onSlot.emit

theorem homeTurners (h : a.Keeps s) : a.Keeps s.homeTurners :=
  (h.foldl (fun _ _ h => h.turnerTo) _).foldl (fun _ _ h => h.moveTo) _

theorem unlock (h : a.Keeps s) {n : Nat} : a.Keeps (s.unlock n) := h.onExcise.writeEntry.closeEvent.postExcise

theorem unlockFails (h : a.Keeps s) {n : Nat} : a.Keeps (s.unlockFails n).1 := by
  have hentry {e : Entry} := (h.onExcise (f := fun e => { e with failed := s.excise.failed + 1 })).writeEntry (e := e)
    |>.closeEvent (b := false)
  unfold State.unlockFails
  dsimp only
  split
  · exact hentry
  · exact hentry.onExcise.postExcise

theorem acknowledge (h : a.Keeps s) {n : Nat} : a.Keeps (s.acknowledge n) := h.onExcise.writeMarks.closeLong.emit

end State.Keeps

/-- What a request does keeps the bounds. -/
def Handler.Keeps (hd : Handler) : Prop := ∀ o r s, State.Keeps s (hd o r s).1

namespace Handler.Keeps

theorem tableWrite : Handler.Keeps tableWrite := fun o r s => by
  have hs := State.Keeps.refl s
  unfold Machine.tableWrite
  dsimp only
  split
  · split
    · split_ifs
      · exact hs
      · exact hs
      · split
        · exact hs.onExcise.answered
        · exact hs
      · split
        · exact hs.onStaged.answered
        · exact hs
    · exact hs
  · exact hs

theorem tableCommit : Handler.Keeps tableCommit := fun o r s => by
  have hs := State.Keeps.refl s
  unfold Machine.tableCommit
  dsimp only
  split
  · split
    · split_ifs
      · exact hs
      · split
        · exact hs.beginLong.commitExcise
        · exact hs.postFull
        · exact hs
      · split
        · next hok => exact hs.commitTable hok
        · exact hs
    · exact hs
  · exact hs

theorem tableDiscard : Handler.Keeps tableDiscard := fun o r s => by
  have hs := State.Keeps.refl s
  unfold Machine.tableDiscard
  dsimp only
  split
  · split
    · split_ifs
      · exact hs
      · exact hs.onExcise.answered
      · exact hs.onStaged.answered
    · exact hs
  · exact hs

theorem tableRead : Handler.Keeps tableRead := fun o r s => by
  have hs := State.Keeps.refl s
  unfold Machine.tableRead
  split
  · split
    · split_ifs <;> exact hs
    · exact hs
  · exact hs

theorem batchOpen : Handler.Keeps batchOpen := fun o r s => by
  have hs := State.Keeps.refl s
  unfold Machine.batchOpen
  split_ifs
  · exact hs
  · exact hs
  · split
    · exact hs
    · split_ifs
      · exact hs
      · split
        · split_ifs
          · exact hs
          · exact hs.onBatch.answered
        · exact hs

/-- A BATCH request that carries an id. -/
theorem onBatchId {o : Originator} {r : Request} {s : State} {f : Nat → Batch → State × Option Answered}
    (hf : ∀ n b, s.Keeps (f n b).1) : s.Keeps (onBatchId o r s f).1 := by
  have hs := State.Keeps.refl s
  unfold Machine.onBatchId
  split_ifs
  · exact hs
  · exact hs
  · split
    · exact hf _ _
    · exact hs

theorem batchStartSteep : Handler.Keeps batchStartSteep := fun o r s => onBatchId fun n b => by
  have hs := State.Keeps.refl s
  split
  · split
    · exact hs
    · split
      · exact hs
      · split_ifs
        · exact hs
        · exact hs.postFull
        · exact hs.startSteep
  · exact hs

theorem batchAbandon : Handler.Keeps batchAbandon := fun o r s => onBatchId fun n b => by
  have hs := State.Keeps.refl s
  split
  · split_ifs
    · exact hs
    · exact hs.postFull
    · exact hs.abandon
  · exact hs

theorem batchRelease : Handler.Keeps batchRelease := fun o r s => onBatchId fun n b => by
  have hs := State.Keeps.refl s
  split_ifs
  · exact hs.onBatch.answered
  · exact hs

theorem batchRead : Handler.Keeps batchRead := fun o r s => by
  have hs := State.Keeps.refl s
  unfold Machine.batchRead
  split
  · split_ifs
    · exact hs
    · split <;> exact hs
  · split_ifs
    · exact hs
    · split <;> exact hs
  · exact hs

theorem vesselSetMode : Handler.Keeps vesselSetMode := fun o r s => by
  have hs := State.Keeps.refl s
  unfold Machine.vesselSetMode
  split
  · split_ifs
    · exact hs
    · split
      · unfold setModeOne
        split
        · exact hs.applyMode
        · exact hs
      · exact hs
  · split_ifs
    · exact hs
    · exact hs
    · split
      · unfold setModeAll
        split
        · exact hs
        · exact hs.foldl (fun _ _ h => h.applyMode) _
      · exact hs
  · exact hs

theorem vesselSetGrant : Handler.Keeps vesselSetGrant := fun o r s => by
  have hs := State.Keeps.refl s
  unfold Machine.vesselSetGrant
  dsimp only
  split
  · split
    · exact hs
    · split
      · split_ifs with _ _ _ hroom
        · exact hs
        · exact hs
        · exact hs
        · exact hs
        · exact hs.changeGrant fun _ => Nat.le_of_not_lt hroom
      · exact hs
  · exact hs

theorem vesselRead : Handler.Keeps vesselRead := fun o r s => by
  have hs := State.Keeps.refl s
  unfold Machine.vesselRead
  split
  · split <;> exact hs
  · exact hs

theorem turnerHome : Handler.Keeps turnerHome := fun o r s => by
  have hs := State.Keeps.refl s
  unfold Machine.turnerHome
  split_ifs
  any_goals exact hs
  exact hs.beginLong.homeTurners

theorem turnerClearReq : Handler.Keeps turnerClearReq := fun o r s => by
  have hs := State.Keeps.refl s
  unfold Machine.turnerClearReq
  split
  · split_ifs
    · exact hs
    · split
      · split_ifs
        · exact hs
        · split
          · exact hs.turnerClear
          · exact hs
      · exact hs
  · exact hs

theorem turnerRead : Handler.Keeps turnerRead := fun o r s => by
  have hs := State.Keeps.refl s
  unfold Machine.turnerRead
  split
  · split <;> exact hs
  · exact hs

theorem transferRequest : Handler.Keeps transferRequest := fun o r s => by
  have hs := State.Keeps.refl s
  unfold Machine.transferRequest
  split_ifs
  · exact hs
  · exact hs
  · split
    · exact hs
    · dsimp only
      split
      · exact hs
      · exact hs.addRequest

theorem transferResume : Handler.Keeps transferResume := fun o r s => by
  have hs := State.Keeps.refl s
  unfold Machine.transferResume
  split_ifs
  any_goals exact hs
  exact hs.resumeRun

theorem transferAbort : Handler.Keeps transferAbort := fun o r s => by
  have hs := State.Keeps.refl s
  unfold Machine.transferAbort
  split_ifs
  any_goals exact hs
  exact hs.beginLong.abortRun

theorem transferRead : Handler.Keeps transferRead := fun o r s => by
  have hs := State.Keeps.refl s
  unfold Machine.transferRead
  split <;> exact hs

theorem exciseUnlock : Handler.Keeps exciseUnlock := fun o r s => by
  have hs := State.Keeps.refl s
  unfold Machine.exciseUnlock
  split_ifs
  any_goals exact hs
  · exact hs.postFull
  · exact hs.unlock
  · exact hs.unlockFails

theorem exciseLock : Handler.Keeps exciseLock := fun o r s => by
  have hs := State.Keeps.refl s
  unfold Machine.exciseLock
  split_ifs
  any_goals exact hs
  exact hs.relock

theorem exciseReadEntry : Handler.Keeps exciseReadEntry := fun o r s => by
  have hs := State.Keeps.refl s
  unfold Machine.exciseReadEntry
  dsimp only
  split_ifs <;> exact hs

theorem exciseAcknowledge : Handler.Keeps exciseAcknowledge := fun o r s => by
  have hs := State.Keeps.refl s
  unfold Machine.exciseAcknowledge
  dsimp only
  split_ifs
  any_goals exact hs
  exact hs.beginLong.acknowledge

theorem exciseReadStatus : Handler.Keeps exciseReadStatus := fun o r s => by
  have hs := State.Keeps.refl s
  unfold Machine.exciseReadStatus
  split_ifs <;> exact hs

theorem partReadStatus : Handler.Keeps partReadStatus := fun o r s => by
  have hs := State.Keeps.refl s
  unfold Machine.partReadStatus
  split_ifs <;> exact hs

theorem partSetPlantTime : Handler.Keeps partSetPlantTime := fun o r s => by
  have hs := State.Keeps.refl s
  unfold Machine.partSetPlantTime
  split_ifs
  · exact hs
  · exact hs
  · split
    · exact hs.onClock.answered
    · exact hs

theorem partReadCounters : Handler.Keeps partReadCounters := fun o r s => by
  have hs := State.Keeps.refl s
  unfold Machine.partReadCounters
  split <;> exact hs

theorem partClearCounters : Handler.Keeps partClearCounters := fun o r s => by
  have hs := State.Keeps.refl s
  unfold Machine.partClearCounters
  split_ifs
  any_goals exact hs
  exact hs.clearCounts

theorem partReset : Handler.Keeps partReset := fun o r s => by
  have hs := State.Keeps.refl s
  unfold Machine.partReset
  split_ifs
  any_goals exact hs
  exact hs.beginLong.onMgmt.formReply

theorem unknownReq : Handler.Keeps unknownReq := fun _ _ s => State.Keeps.refl s

theorem handlerOf (cls code : Nat) : Handler.Keeps ((handlerOf cls code).getD Machine.unknownReq) := by
  unfold Machine.handlerOf
  split
  · exact tableWrite
  · exact tableCommit
  · exact tableDiscard
  · exact tableRead
  · exact batchOpen
  · exact batchStartSteep
  · exact batchAbandon
  · exact batchRelease
  · exact batchRead
  · exact vesselSetMode
  · exact vesselSetGrant
  · exact vesselRead
  · exact turnerHome
  · exact turnerClearReq
  · exact turnerRead
  · exact transferRequest
  · exact transferResume
  · exact transferAbort
  · exact transferRead
  · exact exciseUnlock
  · exact exciseLock
  · exact exciseReadEntry
  · exact exciseAcknowledge
  · exact exciseReadStatus
  · exact partReadStatus
  · exact partSetPlantTime
  · exact partReadCounters
  · exact partClearCounters
  · exact partReset
  · exact unknownReq

end Handler.Keeps

namespace State.Keeps
variable {a s : State}

/-! ## The trunk link, the store and the lock (R136, R149, R150, R168 to R173, R183) -/

theorem touchIdle (h : a.Keeps s) {o : Originator} : a.Keeps (s.touchIdle o) := h.onExcise.ite h

theorem execute (h : a.Keeps s) {o : Originator} {c d : Nat} {hd : Handler} {r : Request} (hh : hd.Keeps) :
    a.Keeps (s.execute o c d hd r) := by
  have hdone := h.trans (hh o r s)
  unfold State.execute
  dsimp only
  split
  · exact hdone.formReply
  · exact hdone

theorem takeRequest (h : a.Keeps s) {c d : Nat} {hd : Handler} {r : Request} (hh : hd.Keeps) :
    a.Keeps (s.takeRequest c d hd r) := by
  unfold State.takeRequest
  split
  · exact h.onTrunk
  · split
    · exact h.onMgmt
    · dsimp only
      split
      · exact h.onTrunk.touchIdle.formReply
      · exact h.onTrunk.touchIdle.execute hh

theorem heard (h : a.Keeps s) {src : Nat} : a.Keeps (s.heard src) :=
  h.ite (h.onTrunk.postTrunk.emit.settle.ite h.onTrunk)

theorem silenceExpires (h : a.Keeps s) : a.Keeps s.silenceExpires := h.onTrunk.postTrunk.ite h

theorem takePayload (h : a.Keeps s) {src seq : Byte} {p : List Byte} : a.Keeps (s.takePayload src seq p) := by
  unfold State.takePayload
  split
  · exact h.takeRequest (Handler.Keeps.handlerOf _ _)
  · exact h.takeRequest Handler.Keeps.unknownReq
  · exact h.takeRequest Handler.Keeps.unknownReq

theorem requestArrives (h : a.Keeps s) {c d : Nat} {hd : Handler} {r : Request} (hh : hd.Keeps) :
    a.Keeps (s.requestArrives c d hd r) := h.onTrunk.ite (h.heard.takeRequest hh)

theorem payloadArrives (h : a.Keeps s) {src seq : Byte} {p : List Byte} : a.Keeps (s.payloadArrives src seq p) :=
  h.onTrunk.ite h.heard.takePayload

theorem relay (h : a.Keeps s) {dst src code : Nat} {x : Int} {tag : Nat} : a.Keeps (s.relay dst src code x tag) :=
  h.offer.ite h.refuse

theorem commandArrives (h : a.Keeps s) {dst src code : Nat} {x : Int} {tag : Nat} :
    a.Keeps (s.commandArrives dst src code x tag) := h.heard.onTrunk.ite (h.heard.relay.ite h.heard)

theorem trunkArrives (h : a.Keeps s) {bs : List Byte} : a.Keeps (s.trunkArrives bs) := by
  have hbad {t : State} (ht : a.Keeps t) : a.Keeps t.trunkBad := ht.onTrunk
  unfold State.trunkArrives
  split
  · split
    · dsimp only
      refine (h.heard.takePayload.ite (hbad h.heard)).ite (Keeps.ite (Keeps.ite ?_ (hbad h.heard)) h.heard)
      split
      · exact h.heard.relay
      · exact hbad h.heard
    · exact hbad h
  · exact h.onTrunk

theorem sent (h : a.Keeps s) : a.Keeps s.sent := by
  unfold State.sent
  split
  · dsimp only
    split
    · exact h.onTrunk.onMgmt
    · exact h.onTrunk.kick
  · exact h

theorem copyWritten (h : a.Keeps s) : a.Keeps s.copyWritten := by
  unfold State.copyWritten
  split
  · exact h.onExcise.endLong.ite h.onExcise
  · exact h

theorem writeFails (h : a.Keeps s) {w : FailedWrite} : a.Keeps (s.writeFails w) := by
  unfold State.writeFails
  split
  · cases w with
    | slot => exact h.enterStoreFault
    | copy => exact h.onExcise.enterStoreFault
  · exact h

theorem idleExpires (h : a.Keeps s) : a.Keeps s.idleExpires := h.relock.ite h
theorem lockoutExpires (h : a.Keeps s) : a.Keeps s.lockoutExpires := h.onExcise.postExcise.ite h

/-! ## Resets (R144, R188) -/

/-- A state with kilns, queue and notices as after a reset keeps the bounds, whatever stood before. -/
theorem cleared (h : a.Keeps s) : a.Keeps s.cleared :=
  h.trans ⟨fun _ => ⟨Nat.zero_le _, fun k => by rw [State.cleared_kiln]⟩, fun _ => ⟨Nat.zero_le _, Nat.zero_le _, List.nodup_nil⟩,
    fun _ => ⟨Nat.zero_le _, fun hne => absurd rfl hne, List.nodup_nil⟩⟩

theorem restart (h : a.Keeps s) {c : RestartCause} : a.Keeps (s.restart c) := by
  unfold State.restart
  dsimp only
  split
  · exact h.onExcise.postFull
  · exact h.writeEntry.ite h.onExcise.postFull

theorem startUp (h : a.Keeps s) {c : RestartCause} : a.Keeps (s.startUp c) :=
  (h.cleared.postExcise.ite h.cleared).restart.releaseEntries.writeLock.closeEvent

theorem commandedReset (h : a.Keeps s) : a.Keeps s.commandedReset := h.startUp.ite h

/-! ## Every command -/

/-- A command that ends in the state t keeps the bounds where t does. -/
theorem of_next {t u : State} (h : a.Keeps t) (he : Host.Outcome.next (φ := Fault) (ρ := Refusal) t = .next u) :
    a.Keeps u := by
  cases he
  exact h

theorem exec {c : Instr} {t : State} (h : exec c s = .next t) : s.Keeps t := by
  have hs := refl s
  cases c with
  | powerOnReset => exact hs.startUp.settle.of_next h
  | commandedReset => exact hs.commandedReset.settle.of_next h
  | timeBaseMark => exact hs.tick.mark.settle.of_next h
  | heldMarkCycleStart => exact hs.heldCycle.settle.of_next h
  | sampleTelegram => exact hs.sampleArrives.settle.of_next h
  | fieldTelegramDiscard => exact hs.fieldArrives.settle.of_next h
  | confirmTelegram => exact hs.confirmArrives.settle.of_next h
  | responseWindowExpiry => exact hs.pollExpires.settle.of_next h
  | commandWaitExpiry => exact hs.commandExpires.settle.of_next h
  | watchTimerExpiry => exact hs.watchExpires.settle.of_next h
  | steepPhaseTimerExpiry => exact hs.steepPhaseExpires.settle.of_next h
  | fillTimeout => exact hs.steepTimeout.settle.of_next h
  | drainTimeout => exact hs.steepTimeout.settle.of_next h
  | weighSettleEnd => exact hs.steepSettled.settle.of_next h
  | weighWindowExpiry => exact hs.steepTimeout.settle.of_next h
  | stageTimerExpiry => exact hs.stageExpires.settle.of_next h
  | intervalTimerExpiry => exact hs.intervalExpires.settle.of_next h
  | moveTimerExpiry => exact hs.moveExpires.settle.of_next h
  | passTimerExpiry => exact hs.passExpires.settle.of_next h
  | breakPoint => exact hs.takeBreakPoint.settle.of_next h
  | firingTimeMinimum => exact hs.kilnMinimum.settle.of_next h
  | firingTimeMaximum => exact hs.kilnMaximum.settle.of_next h
  | coolTimerExpiry => exact hs.coolExpires.settle.of_next h
  | stepTimerExpiry => exact hs.kilnStepExpires.settle.of_next h
  | routeTimerExpiry => exact hs.routeExpires.settle.of_next h
  | noFlowTimerExpiry => exact hs.noFlowExpires.settle.of_next h
  | runOnTimerExpiry => exact hs.runOnExpires.settle.of_next h
  | drawTimerExpiry => exact hs.drawExpires.settle.of_next h
  | idleTimerExpiry => exact hs.idleExpires.settle.of_next h
  | lockoutTimerExpiry => exact hs.lockoutExpires.settle.of_next h
  | trunkSilenceExpiry => exact hs.silenceExpires.settle.of_next h
  | countersCopyWritten => exact hs.copyWritten.settle.of_next h
  | storeWriteFailure => exact hs.writeFails.settle.of_next h
  | transmitComplete => exact hs.sent.settle.of_next h
  | trunkTelegram => exact hs.trunkArrives.settle.of_next h
  | trunkCommand => exact hs.commandArrives.settle.of_next h
  | tableWriteEntry => exact (hs.requestArrives Handler.Keeps.tableWrite).settle.of_next h
  | tableCommit => exact (hs.requestArrives Handler.Keeps.tableCommit).settle.of_next h
  | tableDiscard => exact (hs.requestArrives Handler.Keeps.tableDiscard).settle.of_next h
  | tableRead => exact (hs.requestArrives Handler.Keeps.tableRead).settle.of_next h
  | batchOpen => exact (hs.requestArrives Handler.Keeps.batchOpen).settle.of_next h
  | batchStartSteep => exact (hs.requestArrives Handler.Keeps.batchStartSteep).settle.of_next h
  | batchAbandon => exact (hs.requestArrives Handler.Keeps.batchAbandon).settle.of_next h
  | batchRelease => exact (hs.requestArrives Handler.Keeps.batchRelease).settle.of_next h
  | batchRead => exact (hs.requestArrives Handler.Keeps.batchRead).settle.of_next h
  | vesselSetMode => exact (hs.requestArrives Handler.Keeps.vesselSetMode).settle.of_next h
  | vesselSetGrant => exact (hs.requestArrives Handler.Keeps.vesselSetGrant).settle.of_next h
  | vesselRead => exact (hs.requestArrives Handler.Keeps.vesselRead).settle.of_next h
  | turnerHome => exact (hs.requestArrives Handler.Keeps.turnerHome).settle.of_next h
  | turnerClear => exact (hs.requestArrives Handler.Keeps.turnerClearReq).settle.of_next h
  | turnerRead => exact (hs.requestArrives Handler.Keeps.turnerRead).settle.of_next h
  | transferRequest => exact (hs.requestArrives Handler.Keeps.transferRequest).settle.of_next h
  | transferResume => exact (hs.requestArrives Handler.Keeps.transferResume).settle.of_next h
  | transferAbort => exact (hs.requestArrives Handler.Keeps.transferAbort).settle.of_next h
  | transferRead => exact (hs.requestArrives Handler.Keeps.transferRead).settle.of_next h
  | exciseUnlock => exact (hs.requestArrives Handler.Keeps.exciseUnlock).settle.of_next h
  | exciseLock => exact (hs.requestArrives Handler.Keeps.exciseLock).settle.of_next h
  | exciseReadEntry => exact (hs.requestArrives Handler.Keeps.exciseReadEntry).settle.of_next h
  | exciseAcknowledgeExport => exact (hs.requestArrives Handler.Keeps.exciseAcknowledge).settle.of_next h
  | exciseReadStatus => exact (hs.requestArrives Handler.Keeps.exciseReadStatus).settle.of_next h
  | partReadStatus => exact (hs.requestArrives Handler.Keeps.partReadStatus).settle.of_next h
  | partSetPlantTime => exact (hs.requestArrives Handler.Keeps.partSetPlantTime).settle.of_next h
  | partReadCounters => exact (hs.requestArrives Handler.Keeps.partReadCounters).settle.of_next h
  | partClearCounters => exact (hs.requestArrives Handler.Keeps.partClearCounters).settle.of_next h
  | partReset => exact (hs.requestArrives Handler.Keeps.partReset).settle.of_next h
  | unknownRequest => exact hs.payloadArrives.settle.of_next h

theorem withPending (h : a.Keeps s) {q : List Instr} : a.Keeps (s.withPending q) := ⟨h.heat, h.queue, h.notices⟩

theorem step {t : State} (h : step s = .next t) : s.Keeps t := by
  unfold Machine.step at h
  split at h
  · exact (refl s).of_next h
  · exact (refl s).withPending.trans (exec h)

end State.Keeps

/-- Settles O6: every step keeps the three bounds together, by the case of its command. -/
theorem grantsStayWithinTheBudget : Obligations.GrantsStayWithinTheBudget :=
  fun _ _ hs h => (State.Keeps.step h).heat hs

/-- Settles O7: every step keeps the three bounds together, by the case of its command. -/
theorem commandQueueStaysBounded : Obligations.CommandQueueStaysBounded :=
  fun _ _ hs h => (State.Keeps.step h).queue hs

/-- Settles O8: every step keeps the three bounds together, by the case of its command. -/
theorem noticeQueueStaysBounded : Obligations.NoticeQueueStaysBounded :=
  fun _ _ hs h => (State.Keeps.step h).notices hs

end Sys2Proof.Machine
end

section
/-! PROOFS. The step, and the part after power-up. -/

namespace Sys2Proof.Machine

-- One declaration after the other: side by side, their stacks are more than the check's bound on memory.
set_option Elab.async false

/-- Settles O1: the queue's front is taken off, and an empty queue leaves the state. -/
theorem stepRunsTheFrontCommand : Obligations.StepRunsTheFrontCommand := by
  refine ⟨fun c rest s => rfl, fun s h => ?_⟩
  unfold step
  rw [h]

/-- Settles O2, by running the start-up of the new part. -/
theorem powerUpOfANewPartIsReset : Obligations.PowerUpOfANewPartIsReset := by
  have hrun : (({} : State).startUp .power).settle = State.reset := by decide +kernel
  exact congrArg Host.Outcome.next hrun

/-- Settles O5: no grant, no command and no notice stands after a reset. -/
theorem resetIsSafe : Obligations.ResetIsSafe :=
  ⟨⟨Nat.zero_le _, by decide⟩, ⟨Nat.zero_le _, Nat.zero_le _, List.nodup_nil⟩,
    ⟨Nat.zero_le _, fun h => absurd rfl h, List.nodup_nil⟩⟩

end Sys2Proof.Machine
end

section
/-! PROOFS. What the posting of a notice and the forming of a reply do to the queue and the transmitter, and leave of the part
(R172, R189). -/

namespace Sys2Proof.Machine

-- One declaration after the other: side by side, their stacks are more than the check's bound on memory.
set_option Elab.async false

/-! ## What a notice and a reply leave -/

@[simp] theorem State.post_clock (s : State) (k : NoticeKind) (c : SourceClass) (i n : Nat) (v : Int) :
    (s.post k c i n v).clock = s.clock := (State.post_same ..).clock
@[simp] theorem State.post_field (s : State) (k : NoticeKind) (c : SourceClass) (i n : Nat) (v : Int) :
    (s.post k c i n v).field = s.field := (State.post_same ..).field
@[simp] theorem State.post_intake (s : State) (k : NoticeKind) (c : SourceClass) (i n : Nat) (v : Int) :
    (s.post k c i n v).intake = s.intake := (State.post_same ..).intake
@[simp] theorem State.post_staged (s : State) (k : NoticeKind) (c : SourceClass) (i n : Nat) (v : Int) :
    (s.post k c i n v).staged = s.staged := (State.post_same ..).staged
@[simp] theorem State.post_vessels (s : State) (k : NoticeKind) (c : SourceClass) (i n : Nat) (v : Int) :
    (s.post k c i n v).vessels = s.vessels := (State.post_same ..).vessels
@[simp] theorem State.post_steeps (s : State) (k : NoticeKind) (c : SourceClass) (i n : Nat) (v : Int) :
    (s.post k c i n v).steeps = s.steeps := (State.post_same ..).steeps
@[simp] theorem State.post_comps (s : State) (k : NoticeKind) (c : SourceClass) (i n : Nat) (v : Int) :
    (s.post k c i n v).comps = s.comps := (State.post_same ..).comps
@[simp] theorem State.post_turners (s : State) (k : NoticeKind) (c : SourceClass) (i n : Nat) (v : Int) :
    (s.post k c i n v).turners = s.turners := (State.post_same ..).turners
@[simp] theorem State.post_kilns (s : State) (k : NoticeKind) (c : SourceClass) (i n : Nat) (v : Int) :
    (s.post k c i n v).kilns = s.kilns := (State.post_same ..).kilns
@[simp] theorem State.post_batch (s : State) (k : NoticeKind) (c : SourceClass) (i n : Nat) (v : Int) :
    (s.post k c i n v).batch = s.batch := (State.post_same ..).batch
@[simp] theorem State.post_transfer (s : State) (k : NoticeKind) (c : SourceClass) (i n : Nat) (v : Int) :
    (s.post k c i n v).transfer = s.transfer := (State.post_same ..).transfer
@[simp] theorem State.post_excise (s : State) (k : NoticeKind) (c : SourceClass) (i n : Nat) (v : Int) :
    (s.post k c i n v).excise = s.excise := (State.post_same ..).excise
@[simp] theorem State.post_filter (s : State) (k : NoticeKind) (c : SourceClass) (i n : Nat) (v : Int) :
    (s.post k c i n v).filter = s.filter := (State.post_same ..).filter
@[simp] theorem State.post_mgmt (s : State) (k : NoticeKind) (c : SourceClass) (i n : Nat) (v : Int) :
    (s.post k c i n v).mgmt = s.mgmt := (State.post_same ..).mgmt
@[simp] theorem State.post_pending (s : State) (k : NoticeKind) (c : SourceClass) (i n : Nat) (v : Int) :
    (s.post k c i n v).pending = s.pending := (State.post_same ..).pending
@[simp] theorem State.formReply_clock (s : State) (dest seq cls code : Nat) (st : Status) (d : Nat) (r : ResultBytes) (x : Bool) :
    (s.formReply dest seq cls code st d r x).clock = s.clock := (State.formReply_same ..).clock
@[simp] theorem State.formReply_field (s : State) (dest seq cls code : Nat) (st : Status) (d : Nat) (r : ResultBytes) (x : Bool) :
    (s.formReply dest seq cls code st d r x).field = s.field := (State.formReply_same ..).field
@[simp] theorem State.formReply_intake (s : State) (dest seq cls code : Nat) (st : Status) (d : Nat) (r : ResultBytes) (x : Bool) :
    (s.formReply dest seq cls code st d r x).intake = s.intake := (State.formReply_same ..).intake
@[simp] theorem State.formReply_staged (s : State) (dest seq cls code : Nat) (st : Status) (d : Nat) (r : ResultBytes) (x : Bool) :
    (s.formReply dest seq cls code st d r x).staged = s.staged := (State.formReply_same ..).staged
@[simp] theorem State.formReply_tables (s : State) (dest seq cls code : Nat) (st : Status) (d : Nat) (r : ResultBytes) (x : Bool) :
    (s.formReply dest seq cls code st d r x).tables = s.tables := (State.formReply_same ..).tables
@[simp] theorem State.formReply_vessels (s : State) (dest seq cls code : Nat) (st : Status) (d : Nat) (r : ResultBytes) (x : Bool) :
    (s.formReply dest seq cls code st d r x).vessels = s.vessels := (State.formReply_same ..).vessels
@[simp] theorem State.formReply_steeps (s : State) (dest seq cls code : Nat) (st : Status) (d : Nat) (r : ResultBytes) (x : Bool) :
    (s.formReply dest seq cls code st d r x).steeps = s.steeps := (State.formReply_same ..).steeps
@[simp] theorem State.formReply_comps (s : State) (dest seq cls code : Nat) (st : Status) (d : Nat) (r : ResultBytes) (x : Bool) :
    (s.formReply dest seq cls code st d r x).comps = s.comps := (State.formReply_same ..).comps
@[simp] theorem State.formReply_turners (s : State) (dest seq cls code : Nat) (st : Status) (d : Nat) (r : ResultBytes) (x : Bool) :
    (s.formReply dest seq cls code st d r x).turners = s.turners := (State.formReply_same ..).turners
@[simp] theorem State.formReply_kilns (s : State) (dest seq cls code : Nat) (st : Status) (d : Nat) (r : ResultBytes) (x : Bool) :
    (s.formReply dest seq cls code st d r x).kilns = s.kilns := (State.formReply_same ..).kilns
@[simp] theorem State.formReply_batch (s : State) (dest seq cls code : Nat) (st : Status) (d : Nat) (r : ResultBytes) (x : Bool) :
    (s.formReply dest seq cls code st d r x).batch = s.batch := (State.formReply_same ..).batch
@[simp] theorem State.formReply_transfer (s : State) (dest seq cls code : Nat) (st : Status) (d : Nat) (r : ResultBytes) (x : Bool) :
    (s.formReply dest seq cls code st d r x).transfer = s.transfer := (State.formReply_same ..).transfer
@[simp] theorem State.formReply_excise (s : State) (dest seq cls code : Nat) (st : Status) (d : Nat) (r : ResultBytes) (x : Bool) :
    (s.formReply dest seq cls code st d r x).excise = s.excise := (State.formReply_same ..).excise
@[simp] theorem State.formReply_filter (s : State) (dest seq cls code : Nat) (st : Status) (d : Nat) (r : ResultBytes) (x : Bool) :
    (s.formReply dest seq cls code st d r x).filter = s.filter := (State.formReply_same ..).filter
@[simp] theorem State.formReply_mgmt (s : State) (dest seq cls code : Nat) (st : Status) (d : Nat) (r : ResultBytes) (x : Bool) :
    (s.formReply dest seq cls code st d r x).mgmt = s.mgmt := (State.formReply_same ..).mgmt
@[simp] theorem State.formReply_pending (s : State) (dest seq cls code : Nat) (st : Status) (d : Nat) (r : ResultBytes) (x : Bool) :
    (s.formReply dest seq cls code st d r x).pending = s.pending := (State.formReply_same ..).pending

/-! ## The transmitter and the queue -/

/-- The transmitter that is at work takes nothing. -/
theorem State.kick_busy {s : State} (h : s.trunk.tx.isSome = true) : s.kick = s := by
  unfold State.kick
  rw [if_neg (by simp [Option.isNone_eq_false_iff.2 h])]

/-- Where nothing is ready, the transmitter takes nothing. -/
theorem State.takeTelegram_empty {s : State} (h1 : s.trunk.replies = []) (h2 : s.trunk.refusals = [])
    (h3 : s.notices.queue = []) (h4 : s.trunk.up = []) : s.takeTelegram = s := by
  unfold State.takeTelegram
  rw [h1, h2, h3, h4]

theorem State.promoteMark_of_no_mark {s : State} (h : s.notices.marks = []) : s.promoteMark = s := by
  unfold State.promoteMark
  rw [h]
  rfl

/-- A notice is taken where no reply and no refusal is ready, and its place goes to the earliest mark. -/
theorem State.takeTelegram_notice {s : State} {n : Notice} {ns : List Notice} (h1 : s.trunk.replies = [])
    (h2 : s.trunk.refusals = []) (h3 : s.notices.queue = n :: ns) :
    s.takeTelegram = (((s.onNotices fun q => { q with queue := ns }).promoteMark).onTrunk fun t => { t with
      seq := (t.seq + 1) % 256
      tx := some { origin := .notice, bytes := telegram s.plantAddr s.ownAddr tNOTICE t.seq n.payload } }) := by
  unfold State.takeTelegram
  rw [h1, h2, h3]

/-- A notice for a busy transmitter joins the back of a queue with room. -/
theorem State.post_busy {s : State} (hb : s.trunk.tx.isSome = true) (hq : s.notices.queue.length < 32) (k : NoticeKind)
    (c : SourceClass) (i n : Nat) (v : Int) :
    s.post k c i n v = s.onNotices fun q => { q with
      queue := q.queue ++ [{ kind := k, cls := c, idx := i, state := n, count := 1, value := v, time := s.timeNow }] } := by
  unfold State.post
  dsimp only
  rw [if_pos hq]
  exact State.kick_busy hb

/-- A notice that finds the queue full becomes a pending mark. -/
theorem State.post_full {s : State} (hq : 32 ≤ s.notices.queue.length) (k : NoticeKind) (c : SourceClass) (i n : Nat) (v : Int) :
    s.post k c i n v = s.onNotices fun q => { q with
      marks := setMark q.marks { kind := k, cls := c, idx := i, state := n, count := 1, value := v, time := s.timeNow } } := by
  unfold State.post
  dsimp only
  rw [if_neg (by omega)]

/-- A notice that finds the transmitter idle and nothing before it is sent at once. -/
theorem State.post_idle {s : State} (htx : s.trunk.tx = none) (hd : s.mgmt.resetDue = false) (h1 : s.trunk.replies = [])
    (h2 : s.trunk.refusals = []) (h3 : s.notices = {}) (k : NoticeKind) (c : SourceClass) (i n : Nat) (v : Int) :
    s.post k c i n v = s.onTrunk fun t => { t with
      seq := (t.seq + 1) % 256
      tx := some { origin := .notice, bytes := telegram s.plantAddr s.ownAddr tNOTICE t.seq (Notice.payload
        { kind := k, cls := c, idx := i, state := n, count := 1, value := v, time := s.timeNow }) } } := by
  unfold State.post
  dsimp only
  rw [if_pos (by simp [h3])]
  unfold State.kick
  rw [if_pos (by simp [htx, hd]), State.takeTelegram_notice (s := s.onNotices _) (ns := []) h1 h2 (by simp [h3]; rfl),
    State.promoteMark_of_no_mark (by simp [h3])]
  unfold State.onTrunk State.onNotices State.plantAddr State.ownAddr
  simp [h3]

end Sys2Proof.Machine
end

section
/-! PROOFS. What a reset leaves, and the two entries of a start-up (R135, R136, R144, R188). -/

namespace Sys2Proof.Machine

-- One declaration after the other: side by side, their stacks are more than the check's bound on memory.
set_option Elab.async false

/-! ## What the writing of an entry leaves of the excise unit -/

@[simp] theorem State.endLong_excise (s : State) (o : Originator) (st : Status) (d : Nat) :
    (s.endLong o st d).excise = s.excise := by
  unfold State.endLong
  split
  · exact State.formReply_excise ..
  · rfl

/-- An excise unit after the writing of an entry: lock, tables, marks and reservation stay. -/
def Excise.PlusEntry (e f : Excise) : Prop :=
  ∃ sf n c sl js fr,
    f = { e with storeFault := sf, now := { e.now with next := n, chain := c }, slots := sl, jobs := js, fresh := fr }

theorem State.enterStoreFault_excise (s : State) : s.excise.PlusEntry s.enterStoreFault.excise := by
  unfold State.enterStoreFault
  split
  · exact ⟨_, _, _, _, _, _, rfl⟩
  · refine ⟨true, s.excise.now.next, s.excise.now.chain, s.excise.slots, [], [], ?_⟩
    dsimp only
    rw [show ∀ x : State, (x.emit .storeFault).excise = x.excise from fun _ => rfl]
    split
    · exact (State.endLong_excise ..).trans (State.post_excise ..)
    · exact State.post_excise ..

theorem State.writeEntry_excise (s : State) (e : Entry) : s.excise.PlusEntry (s.writeEntry e).excise := by
  unfold State.writeEntry
  dsimp only
  split
  · exact ⟨_, _, _, _, _, _, rfl⟩
  · split
    · obtain ⟨sf, n, c, sl, js, fr, h⟩ := State.enterStoreFault_excise (s.onExcise fun u => { u with
        now := { u.now with next := min max32 ((s.stampEntry e).number + 1), chain := (s.stampEntry e).chain }
        slots := u.slots.put (slotOf (s.stampEntry e).number) (s.stampEntry e)
        fresh := u.fresh ++ [s.stampEntry e] })
      exact ⟨sf, n, c, sl, js, fr, h⟩
    · exact ⟨_, _, _, _, _, _, rfl⟩

theorem State.writeRestartMark_of_none {s : State} (h : s.excise.now.restart = none) : s.writeRestartMark = s := by
  unfold State.writeRestartMark
  rw [h]

theorem State.writeLockMark_of_none {s : State} (h : s.excise.pendingLock = none) : s.writeLockMark = s := by
  unfold State.writeLockMark
  rw [h]

theorem Excise.avail_of_storeFault {e : Excise} (h : e.storeFault = true) : ¬ 1 ≤ e.avail := by
  simp [Excise.avail, Excise.free, h]

/-! ## A start-up under way (R144) -/

/-- An excise unit that has the lock, the committed tables, the store and the store writes of another, and its STORE_FAULT. -/
structure Excise.SameLock (e f : Excise) : Prop where
  lock : f.lock = e.lock
  failed : f.failed = e.failed
  idle : f.idle = e.idle
  lockout : f.lockout = e.lockout
  staged : f.staged = e.staged
  tables : f.now.tables = e.now.tables
  nv : f.nv = e.nv
  jobs : f.jobs = e.jobs
  fault : e.storeFault = true → f.storeFault = true

/-- A notice as the start-up posts one. -/
def Notice.OfStartUp (x : Notice) : Prop := x.kind = .excise ∧ x.cls = .excise ∧ x.idx = 0 ∧ x.time = 0

/-- What stands while the start-up after a reset from s is at work: every block is in its reset state but for the excise
unit, and at most k notices have been posted, the first of which is being sent. -/
structure State.StartingUp (s t : State) (k : Nat) : Prop where
  blocks : ∃ e n tx q w, t = { ({} : State) with
    excise := e, notices := n, trunk := { ({} : Trunk) with tx := tx, seq := q }, draws := s.cleared.draws, work := w
    pending := s.pending }
  lock : t.excise.lock = .locked
  failed : t.excise.failed = 0
  idle : t.excise.idle = none
  lockout : t.excise.lockout = none
  staged : t.excise.staged = t.excise.now.tables
  nv : t.excise.nv = s.excise.nv.recover
  jobs : t.excise.jobs = []
  work : t.work = [] ∨ t.work = [.storeFault] ∧ t.excise.storeFault = true
  marks : t.notices.marks = []
  posted : ∀ x ∈ t.notices.queue, x.OfStartUp
  sending : (t.trunk.tx = none ∧ t.trunk.seq = 0 ∧ t.notices.queue = []) ∨
    (t.trunk.seq = 1 ∧ t.notices.queue.length + 1 ≤ k ∧ ∃ x : Notice, x.OfStartUp ∧
      t.trunk.tx = some { origin := .notice, bytes := telegram 1 112 tNOTICE 0 x.payload })

namespace State.StartingUp

theorem mono {s t : State} {k l : Nat} (h : s.StartingUp t k) (hl : k ≤ l) : s.StartingUp t l :=
  { h with sending := h.sending.imp_right fun ⟨hq, hk, hx⟩ => ⟨hq, hk.trans hl, hx⟩ }

/-- An excise unit that still has its lock, its tables and its store leaves the start-up as it is. -/
theorem onExcise {s t : State} {k : Nat} (h : s.StartingUp t k) {f : Excise → Excise} (hf : t.excise.SameLock (f t.excise)) :
    s.StartingUp (t.onExcise f) k := by
  obtain ⟨e, m, tx, q, w, ht⟩ := h.blocks
  exact { blocks := ⟨_, _, _, _, _, by rw [ht]; rfl⟩
          lock := hf.lock.trans h.lock
          failed := hf.failed.trans h.failed
          idle := hf.idle.trans h.idle
          lockout := hf.lockout.trans h.lockout
          staged := hf.staged.trans (h.staged.trans hf.tables.symm)
          nv := hf.nv.trans h.nv
          jobs := hf.jobs.trans h.jobs
          work := h.work.imp_right fun ⟨hw, hs⟩ => ⟨hw, hf.fault hs⟩
          marks := h.marks
          posted := h.posted
          sending := h.sending }

/-- The first notice goes to the idle transmitter, and a later one into the queue. -/
theorem postExcise {s t : State} {k : Nat} (h : s.StartingUp t k) (hk : k ≤ 31) (st : Nat) (v : Int) :
    s.StartingUp (t.postExcise st v) (k + 1) := by
  obtain ⟨e, n, tx, q, w, ht⟩ := h.blocks
  have hclock : t.timeNow = 0 := by rw [ht]; rfl
  have hown : t.ownAddr = 112 := by rw [ht]; rfl
  have hplant : t.plantAddr = 1 := by rw [ht]; rfl
  have hx : Notice.OfStartUp { kind := .excise, cls := .excise, idx := 0, state := st, count := 1, value := v, time := t.timeNow } :=
    ⟨rfl, rfl, rfl, hclock⟩
  unfold State.postExcise
  rcases h.sending with ⟨htx, hseq, hq⟩ | ⟨hseq, hlen, hsend⟩
  · have hn : t.notices = {} := by
      cases hn : t.notices with
      | mk qu ma => rw [hn] at hq; have hm := h.marks; rw [hn] at hm; subst hq hm; rfl
    rw [State.post_idle htx (by rw [ht]) (by rw [ht]) (by rw [ht]) hn, hown, hplant]
    exact { h with
      blocks := ⟨_, _, _, _, _, by rw [ht]; rfl⟩
      sending := .inr ⟨by simp [hseq], by simp [hq], _, hx, by simp [hseq]⟩ }
  · obtain ⟨x, hxs, htx⟩ := hsend
    rw [State.post_busy (by rw [htx]; rfl) (by omega)]
    exact { h with
      blocks := ⟨_, _, _, _, _, by rw [ht]; rfl⟩
      posted := fun y hy => (List.mem_append.1 hy).elim (h.posted y) fun hy => List.mem_singleton.1 hy ▸ hx
      sending := .inr ⟨hseq, by simpa using hlen, x, hxs, htx⟩ }

/-- The unit enters STORE_FAULT: it posts its notice, and the run is to be told. -/
theorem enterStoreFault {s t : State} {k : Nat} (h : s.StartingUp t k) (hk : k ≤ 31) : s.StartingUp t.enterStoreFault (k + 1) := by
  unfold State.enterStoreFault
  split
  · exact h.mono (by omega)
  · next hf =>
    have hw : t.work = [] := h.work.resolve_right fun hw => hf hw.2
    have hn := (h.onExcise (f := fun e => { e with storeFault := true, jobs := [], fresh := [] })
      ⟨rfl, rfl, rfl, rfl, rfl, rfl, rfl, h.jobs.symm, fun _ => rfl⟩).postExcise hk storeFaultCode 0
    obtain ⟨e, m, tx, q, w, ht⟩ := hn.blocks
    dsimp only
    rw [h.jobs]
    exact { hn with
      blocks := ⟨_, _, _, _, _, congrArg (State.emit · .storeFault) ht⟩
      work := .inr ⟨by simp [State.emit, State.postExcise, hw], by simp [State.emit, State.postExcise]⟩ }

/-- An entry is written; with the last number given, the unit posts its fault. -/
theorem writeEntry {s t : State} {k : Nat} (h : s.StartingUp t k) (hk : k ≤ 31) (e : Entry) :
    s.StartingUp (t.writeEntry e) (k + 1) := by
  unfold State.writeEntry
  dsimp only
  split
  · exact h.mono (by omega)
  · have hn := h.onExcise (f := fun u => { u with
      now := { u.now with next := min max32 ((t.stampEntry e).number + 1), chain := (t.stampEntry e).chain }
      slots := u.slots.put (slotOf (t.stampEntry e).number) (t.stampEntry e)
      fresh := u.fresh ++ [t.stampEntry e] }) ⟨rfl, rfl, rfl, rfl, rfl, rfl, rfl, rfl, id⟩
    split
    · exact hn.enterStoreFault hk
    · exact hn.mono (by omega)

/-- The RESTART entry of the start-up is written, or its mark is pending with a notice. -/
theorem restart {s t : State} {k : Nat} (h : s.StartingUp t k) (hk : k ≤ 31) (c : RestartCause) :
    s.StartingUp (t.restart c) (k + 1) := by
  unfold State.restart
  dsimp only
  split
  · exact (h.onExcise ⟨rfl, rfl, rfl, rfl, rfl, rfl, rfl, rfl, id⟩).postExcise hk _ _
  · split
    · exact h.writeEntry hk _
    · exact (h.onExcise ⟨rfl, rfl, rfl, rfl, rfl, rfl, rfl, rfl, id⟩).postExcise hk _ _

/-- The LOCK entry of the start-up is written, or its mark is pending with a notice. -/
theorem writeLock {s t : State} {k : Nat} (h : s.StartingUp t k) (hk : k ≤ 31) (c : RelockCause) :
    s.StartingUp (t.writeLock c) (k + 1) := by
  unfold State.writeLock
  split
  · exact h.writeEntry hk _
  · split
    · exact h.mono (by omega)
    · exact (h.onExcise ⟨rfl, rfl, rfl, rfl, rfl, rfl, rfl, rfl, id⟩).postExcise hk _ _

/-- The release of the entries writes the RESTART mark where it can: one notice at most, and none in STORE_FAULT. -/
theorem releaseEntries {s t : State} {k : Nat} (h : s.StartingUp t k) (hk : k ≤ 31) (hp : t.excise.pendingLock = none) :
    s.StartingUp t.releaseEntries (if t.excise.storeFault then k else k + 1) ∧ t.releaseEntries.excise.now.openNo = 0 ∧
      t.releaseEntries.excise.now.reservation = 0 := by
  have hn := h.onExcise (f := fun e => { e with now := { e.now with reservation := 0, openNo := 0 } })
    ⟨rfl, rfl, rfl, rfl, rfl, rfl, rfl, rfl, id⟩
  have hp' : (t.onExcise fun e => { e with now := { e.now with reservation := 0, openNo := 0 } }).excise.pendingLock = none := hp
  unfold State.releaseEntries State.writeMarks State.writeRestartMark
  split
  · next m hm =>
    split
    · next hav =>
      have hf := Excise.storeFault_of_avail hav
      have hw := (hn.onExcise (f := fun e => { e with now := { e.now with restart := none } })
        ⟨rfl, rfl, rfl, rfl, rfl, rfl, rfl, rfl, id⟩).writeEntry hk (restartEntry m)
      obtain ⟨sf, n, c, sl, js, fr, he⟩ := State.writeEntry_excise ((t.onExcise fun e => { e with
        now := { e.now with reservation := 0, openNo := 0 } }).onExcise fun e => { e with now := { e.now with restart := none } })
        (restartEntry m)
      rw [State.writeLockMark_of_none (by rw [he]; exact hp), if_neg (by simp [show t.excise.storeFault = false from hf])]
      exact ⟨hw, by rw [he]; rfl, by rw [he]; rfl⟩
    · rw [State.writeLockMark_of_none hp']
      exact ⟨hn.mono (by split <;> omega), rfl, rfl⟩
  · rw [State.writeLockMark_of_none hp']
    exact ⟨hn.mono (by split <;> omega), rfl, rfl⟩

end State.StartingUp

/-- The state after the clearing of every block: nothing has been posted. -/
theorem State.StartingUp.cleared (s : State) : s.StartingUp s.cleared 0 := by
  unfold State.cleared Excise.startUp
  dsimp only
  refine ⟨⟨_, _, _, _, _, rfl⟩, ?_, ?_, ?_, ?_, ?_, ?_, ?_, .inl rfl, rfl, fun x hx => absurd hx List.not_mem_nil, .inl ⟨rfl, rfl, rfl⟩⟩
  all_goals cases s.excise.nv.recover.best <;> rfl

theorem State.restart_pendingLock (s : State) (c : RestartCause) : (s.restart c).excise.pendingLock = s.excise.pendingLock := by
  unfold State.restart
  dsimp only
  split
  · simp [State.postFull, State.postExcise]
  · split
    · obtain ⟨_, _, _, _, _, _, he⟩ := State.writeEntry_excise s (restartEntry ⟨c, s.excise.now.openNo, 0⟩)
      rw [he]
    · simp [State.postFull, State.postExcise]

theorem State.restart_storeFault {s : State} (h : s.excise.storeFault = true) (c : RestartCause) :
    (s.restart c).excise.storeFault = true := by
  unfold State.restart
  dsimp only
  split
  · simp [State.postFull, State.postExcise, h]
  · rw [if_neg (Excise.avail_of_storeFault h)]
    simp [State.postFull, State.postExcise, h]

/-- A LOCK entry leaves the reservation and the open transfer alone. -/
theorem State.writeLock_now (s : State) (c : RelockCause) :
    (s.writeLock c).excise.now.openNo = s.excise.now.openNo ∧
      (s.writeLock c).excise.now.reservation = s.excise.now.reservation := by
  unfold State.writeLock
  split
  · obtain ⟨_, _, _, _, _, _, he⟩ := State.writeEntry_excise s (lockEntry c)
    rw [he]
    exact ⟨rfl, rfl⟩
  · split
    · exact ⟨rfl, rfl⟩
    · simp [State.postFull, State.postExcise]

/-- Before the event of a start-up is closed, at most three notices have been posted. -/
theorem State.StartingUp.beforeClose (s : State) (c : RestartCause) :
    ∃ u, s.startUp c = u.closeEvent false ∧ s.StartingUp u 3 ∧ u.excise.now.openNo = 0 ∧ u.excise.now.reservation = 0 := by
  have hc := State.StartingUp.cleared s
  have hp : s.cleared.excise.pendingLock = none := by
    unfold State.cleared Excise.startUp
    dsimp only
    cases s.excise.nv.recover.best <;> rfl
  have hend : ∀ x : State, s.StartingUp x 2 → x.excise.now.openNo = 0 ∧ x.excise.now.reservation = 0 →
      s.StartingUp (x.writeLock .reset) 3 ∧ (x.writeLock .reset).excise.now.openNo = 0 ∧
        (x.writeLock .reset).excise.now.reservation = 0 := fun x hx hr =>
    ⟨hx.writeLock (by omega) _, by rw [(State.writeLock_now x .reset).1]; exact hr.1,
      by rw [(State.writeLock_now x .reset).2]; exact hr.2⟩
  refine ⟨_, rfl, ?_⟩
  split
  · next hf =>
    have h1 := (hc.postExcise (by omega) storeFaultCode 0).restart (by omega) c
    obtain ⟨h2, h3⟩ := h1.releaseEntries (by omega) (by rw [State.restart_pendingLock]; simp [State.postExcise, hp])
    rw [if_pos (State.restart_storeFault (by simp [State.postExcise, hf]) c)] at h2
    exact hend _ h2 h3
  · obtain ⟨h2, h3⟩ := (hc.restart (by omega) c).releaseEntries (by omega) (by rw [State.restart_pendingLock, hp])
    exact hend _ (h2.mono (by split <;> omega)) h3

theorem State.closeEvent_excise (s : State) (b : Bool) :
    ∃ js, s.closeEvent b = { s with excise := { s.excise with jobs := js, fresh := [] } } := by
  unfold State.closeEvent State.onExcise
  dsimp only
  split
  · exact ⟨_, rfl⟩
  · exact ⟨_, rfl⟩

/-- With no transfer running, the run has nothing to abort where the unit enters STORE_FAULT. -/
theorem State.abortRun_of_idle {s : State} (h : s.transfer.running = none) (c : AbortCause) : s.abortRun c = s := by
  unfold State.abortRun
  rw [h]

/-- What is set out between the blocks has no effect while no transfer runs. -/
theorem State.settle_of_storeFault {s : State} (h : s.work = [] ∨ s.work = [.storeFault]) (hr : s.transfer.running = none) :
    s.settle = { s with work := [] } := by
  rcases h with h | h
  · rw [State.settle_of_idle h, ← h]
  · have hs : ({ s with work := [] } : State).takeEvent .storeFault = { s with work := [] } :=
      State.abortRun_of_idle (s := { s with work := [] }) hr .storeFault
    rw [State.settle_of_one h (congrArg State.work hs), hs]

/-- Settles O3: every notice of the start-up goes to the idle transmitter or into the queue, and nothing but the excise unit
has been touched since the blocks were cleared. -/
theorem resetClearsEveryBlock : Obligations.ResetClearsEveryBlock := by
  intro s c hc
  obtain ⟨cause, hx⟩ : ∃ cause, exec c s = .next (s.startUp cause).settle := by
    rcases hc with rfl | ⟨rfl, hd⟩
    · exact ⟨.power, rfl⟩
    · exact ⟨.commanded, congrArg (fun x : State => Host.Outcome.next x.settle) (if_pos hd)⟩
  obtain ⟨u, hu, h, hopen, hres⟩ := State.StartingUp.beforeClose s cause
  obtain ⟨e, n, tx, q, w, ht⟩ := h.blocks
  obtain ⟨js, hv⟩ := State.closeEvent_excise u false
  have hw : (u.closeEvent false).work = [] ∨ (u.closeEvent false).work = [.storeFault] := by
    rw [hv]
    exact h.work.imp_right And.left
  refine ⟨{ u.excise with jobs := js, fresh := [] }, u.notices, u.trunk.tx, u.trunk.seq, s.cleared.draws, ?_, h.lock, h.failed,
    h.idle, h.lockout, h.staged, hopen, hres, h.nv, ?_, h.marks, ?_, h.posted, ?_⟩
  · rw [hx, hu, State.settle_of_storeFault hw (by rw [hv, ht]), hv, ht]
  · rw [h.nv]
    rfl
  · rcases h.sending with hq | hq
    · simp [hq.2.2]
    · exact Nat.le_of_succ_le_succ hq.2.1
  · refine h.sending.imp id fun hq => ⟨hq.1, ?_⟩
    obtain ⟨x, ⟨h1, h2, h3, h4⟩, h5⟩ := hq.2.2
    exact ⟨x, h1, h2, h3, h4, h5⟩

/-! ## The two entries of a start-up (R144) -/

/-- An entry as it is taken where plant time is not set. -/
theorem State.stampEntry_noTime {s : State} (h : s.clock.plant = none) (e : Entry) :
    s.stampEntry e =
      { e with
        number := s.excise.now.next, day := 0, second := 0, flags := e.flags + fNOTIME
        chain := crc32 s.excise.now.chain (Entry.head
          { e with number := s.excise.now.next, day := 0, second := 0, flags := e.flags + fNOTIME }) } := by
  simp only [State.stampEntry, h]

/-- The excise unit after the taking of an entry that has its number and its time. -/
def Excise.taking (u : Excise) (x : Entry) : Excise :=
  { u with
    now := { u.now with next := u.now.next + 1, chain := crc32 u.now.chain x.head }
    slots := u.slots.put (slotOf u.now.next) { x with chain := crc32 u.now.chain x.head }
    fresh := u.fresh ++ [{ x with chain := crc32 u.now.chain x.head }] }

/-- An entry taken where plant time is not set and the register has room. -/
theorem State.writeEntry_noTime {s : State} {e x : Entry} (hp : s.clock.plant = none) (hf : s.excise.storeFault = false)
    (hn : s.excise.now.next < max32)
    (hx : x = { e with number := s.excise.now.next, day := 0, second := 0, flags := e.flags + fNOTIME }) :
    s.writeEntry e = s.onExcise (·.taking x) := by
  rw [State.writeEntry_room e hf hn, State.stampEntry_noTime hp, hx]
  simp only [State.onExcise, Excise.taking]

/-- Two numbers that follow each other have slots of their own. -/
theorem slotOf_succ_ne {n : Nat} (h : 1 ≤ n) : slotOf (n + 1) ≠ slotOf n := by
  unfold slotOf
  omega

/-- The excise unit of a start-up that finds a good copy. -/
theorem State.cleared_of_best {s : State} {k : Copy} (h : s.excise.nv.recover.best = some k) :
    s.cleared.excise = { now := k.counters, slots := slotsBelow s.excise.nv.recover.slots k.counters.next
                         nv := s.excise.nv.recover, staged := k.counters.tables } := by
  unfold State.cleared Excise.startUp
  dsimp only
  rw [h]

/-- Settles O4: the copy gives the number and the chain value of RESTART, and RESTART those of LOCK. -/
theorem startUpWritesRestartAndLock : Obligations.StartUpWritesRestartAndLock := by
  intro s c cause k hc hbest hrestart hnext hmax hroom hroom' n r x l y
  have hx : exec c s = .next (s.startUp cause).settle := by
    rcases hc with ⟨rfl, rfl⟩ | ⟨rfl, hd, rfl⟩
    · rfl
    · exact congrArg (fun x : State => Host.Outcome.next x.settle) (if_pos hd)
  have hx32 : crc32 k.counters.chain r.head = x := rfl
  have hy32 : crc32 x l.head = y := rfl
  have hcl := State.cleared_of_best hbest
  have hr : s.cleared.restart cause = s.cleared.onExcise (·.taking r) := by
    unfold State.restart
    rw [hcl]
    dsimp only
    rw [hrestart]
    dsimp only
    rw [if_pos (by simp [Excise.avail, Excise.free]; omega)]
    exact State.writeEntry_noTime rfl (by rw [hcl]) (by rw [hcl]; show n < max32; omega) (by rw [hcl]; rfl)
  have hrel : (s.cleared.onExcise (·.taking r)).releaseEntries = (s.cleared.onExcise (·.taking r)).onExcise fun e =>
      { e with now := { e.now with reservation := 0, openNo := 0 } } := by
    unfold State.releaseEntries State.writeMarks
    rw [State.writeRestartMark_of_none, State.writeLockMark_of_none]
    · simp [hcl, Excise.taking]
    · simp [hcl, Excise.taking, hrestart]
  generalize hv : (s.cleared.onExcise (·.taking r)).onExcise (fun e =>
      { e with now := { e.now with reservation := 0, openNo := 0 } }) = v at hrel
  have hve : v.excise = { s.cleared.excise.taking r with
      now := { (s.cleared.excise.taking r).now with reservation := 0, openNo := 0 } } := by rw [← hv]; rfl
  rw [hcl] at hve
  have hl : v.writeLock .reset = v.onExcise (·.taking l) := by
    unfold State.writeLock
    rw [if_pos (by rw [hve]; simp [Excise.avail, Excise.free, Excise.taking]; omega)]
    exact State.writeEntry_noTime (by rw [← hv]; rfl) (by rw [hve]; rfl) (by rw [hve]; exact hmax) (by rw [hve]; rfl)
  have hs : s.startUp cause = (v.onExcise (·.taking l)).closeEvent false := by
    unfold State.startUp State.exciseStart
    dsimp only
    rw [if_neg (by simp [hcl]), hr, hrel, hl]
  rw [State.closeEvent_room (by simp [hve, Excise.taking])] at hs
  have hw : (s.startUp cause).work = [] := by rw [hs, ← hv]; rfl
  refine ⟨s.startUp cause, by rw [hx, State.settle_of_idle hw], ?_⟩
  have he : (s.startUp cause).excise = { v.excise.taking l with
      jobs := (v.excise.taking l).jobs ++ [{ entries := (v.excise.taking l).fresh, counters := (v.excise.taking l).now
                                             reply := false }], fresh := [] } := by rw [hs]; rfl
  rw [he, hve]
  simp only [Excise.taking, hx32, hy32]
  clear_value x y
  refine ⟨?_, Tbl.get_put_same .., ?_, ?_⟩
  · rw [Tbl.get_put_ne _ (slotOf_succ_ne hnext).symm]
    exact Tbl.get_put_same ..
  · rfl
  · rfl

end Sys2Proof.Machine
end

section
/-! PROOFS. Time: the clock, the timers and the start of a field cycle (R28, R38, R49, R64, R94, R176 to R178, R185). -/

namespace Sys2Proof.Machine

-- One declaration after the other: side by side, their stacks are more than the check's bound on memory.
set_option Elab.async false

/-! ## A step for each of a list of records -/

/-- Where each step sets one part of the state alone, so do all of them together. -/
theorem foldl_sets {σ ι β : Type} (set : σ → β → σ) (get : σ → β) (hget : ∀ s, set s (get s) = s)
    (hset : ∀ s b c, set (set s b) c = set s c) {step : σ → ι → σ} (h : ∀ s i, ∃ b, step s i = set s b) (l : List ι) (s : σ) :
    ∃ b, l.foldl step s = set s b := by
  induction l generalizing s with
  | nil => exact ⟨get s, (hget s).symm⟩
  | cons i l ih =>
    obtain ⟨b, hb⟩ := h s i
    obtain ⟨c, hc⟩ := ih (step s i)
    exact ⟨c, by rw [List.foldl_cons, hc, hb, hset]⟩

/-- Where each step changes its own record alone, and no other step what it makes of it, the list changes each of its records
as its own step does. -/
theorem foldl_each {σ ι β : Type} (get : σ → ι → β) {step : σ → ι → σ}
    (hget : ∀ s i j, j ≠ i → get (step s i) j = get s j)
    (hstep : ∀ s i j, j ≠ i → get (step (step s i) j) j = get (step s j) j) {l : List ι} (hl : l.Nodup) (s : σ) {j : ι}
    (hj : j ∈ l) : get (l.foldl step s) j = get (step s j) j := by
  induction l generalizing s with
  | nil => cases hj
  | cons i l ih =>
    rw [List.foldl_cons]
    obtain ⟨hi, hl⟩ := List.nodup_cons.1 hl
    rcases List.mem_cons.1 hj with rfl | hj
    · have hkeep : ∀ (l : List ι) (s : σ), j ∉ l → get (l.foldl step s) j = get s j := fun l => by
        induction l with
        | nil => exact fun _ _ => rfl
        | cons k l ih =>
          intro s hk
          rw [List.mem_cons, not_or] at hk
          rw [List.foldl_cons, ih _ hk.2, hget s k j hk.1]
      exact hkeep l _ hi
    · rw [ih hl _ hj, hstep s i j (fun h => hi (h ▸ hj))]

/-! ## A tenth of a second (R38, R49, R64, R94, R185) -/

/-- The vessels' watch timers a tenth later. -/
def State.tickVessels (s : State) : State :=
  allVessels.foldl (fun s v => s.onVessel v fun r => { r with watch := r.watch.tick }) s
def State.tickSteeps (s : State) : State := allSteeps.foldl (fun s i => s.tickSteep i) s
def State.tickComps (s : State) : State := allComps.foldl (fun s c => s.tickComp c) s
def State.tickTurners (s : State) : State := allTurners.foldl (fun s t => s.tickTurner t) s
def State.tickKilns (s : State) : State := allKilns.foldl (fun s k => s.tickKiln k) s

theorem State.tick_eq (s : State) :
    s.tick = (((((((s.onClock Clock.tick).onTrunk fun t => { t with silence := t.silence.tick }).tickVessels).tickSteeps
      ).tickComps).tickTurners).tickKilns.onRun Running.tick).tickExcise := rfl

theorem State.tickVessels_same (s : State) : ∃ v, s.tickVessels = { s with vessels := v } :=
  foldl_sets (fun (t : State) (v : Vector VesselRec 12) => { t with vessels := v }) State.vessels (fun _ => rfl) (fun _ _ _ => rfl)
    (fun _ _ => ⟨_, rfl⟩) allVessels s
theorem State.tickSteeps_same (s : State) : ∃ v, s.tickSteeps = { s with steeps := v } :=
  foldl_sets (fun (t : State) (v : Vector Steep 4) => { t with steeps := v }) State.steeps (fun _ => rfl) (fun _ _ _ => rfl)
    (fun _ _ => ⟨_, rfl⟩) allSteeps s
theorem State.tickComps_same (s : State) : ∃ v, s.tickComps = { s with comps := v } :=
  foldl_sets (fun (t : State) (v : Vector Comp 6) => { t with comps := v }) State.comps (fun _ => rfl) (fun _ _ _ => rfl)
    (fun _ _ => ⟨_, rfl⟩) allComps s
theorem State.tickTurners_same (s : State) : ∃ v, s.tickTurners = { s with turners := v } :=
  foldl_sets (fun (t : State) (v : Vector Turner 2) => { t with turners := v }) State.turners (fun _ => rfl) (fun _ _ _ => rfl)
    (fun _ _ => ⟨_, rfl⟩) allTurners s
theorem State.tickKilns_same (s : State) : ∃ v, s.tickKilns = { s with kilns := v } :=
  foldl_sets (fun (t : State) (v : Vector Kiln 2) => { t with kilns := v }) State.kilns (fun _ => rfl) (fun _ _ _ => rfl)
    (fun _ _ => ⟨_, rfl⟩) allKilns s

theorem State.tickVessels_vessel (s : State) (v : Fin 12) :
    s.tickVessels.vessel v = { s.vessel v with watch := (s.vessel v).watch.tick } :=
  (foldl_each State.vessel (fun _ _ _ h => State.onVessel_vessel_ne _ h _)
    (fun s i j h => by rw [State.onVessel_vessel_same, State.onVessel_vessel_ne _ h, State.onVessel_vessel_same])
    (by decide) s (by revert v; decide)).trans (State.onVessel_vessel_same ..)

/-- A steep's timers a tenth later, under the mode and the BLIND flag of its vessel. -/
theorem State.tickSteeps_steep (s : State) (i : Fin 4) :
    s.tickSteeps.steep i = { s.steep i with
      phaseTimer := (s.steep i).phaseTimer.tickIf (s.phaseTimerRuns i)
      wait := (s.steep i).wait.map fun w => if s.waitRuns i w.1 then (w.1, w.2 - 1) else w } := by
  have hsame : ∀ (s : State) (i : Fin 4), (s.tickSteep i).steep i = _ := fun s i => State.onSteep_steep_same ..
  have hne : ∀ (s : State) (i j : Fin 4), j ≠ i → (s.tickSteep i).steep j = s.steep j :=
    fun s i j h => State.onSteep_steep_ne _ h _
  refine (foldl_each State.steep hne (fun s i j h => ?_) (by decide) s (by revert i; decide)).trans (hsame s i)
  rw [hsame, hsame, hne s i j h]
  rfl

/-- A compartment's timers a tenth later, under its own phase state and the mode and the BLIND flag of its vessel. -/
theorem State.tickComps_comp (s : State) (c : Fin 6) :
    s.tickComps.comp c = { s.comp c with
      stageTimer := (s.comp c).stageTimer.tickIf (s.compTimersRun c)
      interval := (s.comp c).interval.tickIf (s.compTimersRun c) } := by
  have hsame : ∀ (s : State) (c : Fin 6), (s.tickComp c).comp c = _ := fun s c => State.onComp_comp_same ..
  have hne : ∀ (s : State) (i j : Fin 6), j ≠ i → (s.tickComp i).comp j = s.comp j :=
    fun s i j h => State.onComp_comp_ne _ h _
  refine (foldl_each State.comp hne (fun s i j h => ?_) (by decide) s (by revert c; decide)).trans (hsame s c)
  have hrun : (s.tickComp i).compTimersRun j = s.compTimersRun j := by
    unfold State.compTimersRun
    rw [hne s i j h]
    rfl
  rw [hsame, hsame, hne s i j h, hrun]

theorem State.tickTurners_turner (s : State) (t : Fin 2) :
    s.tickTurners.turner t = { s.turner t with
      moveTimer := (s.turner t).moveTimer.tick, passTimer := (s.turner t).passTimer.tick } := by
  have hsame : ∀ (s : State) (c : Fin 2), (s.tickTurner c).turner c = _ := fun s c => State.onTurner_turner_same ..
  have hne : ∀ (s : State) (i j : Fin 2), j ≠ i → (s.tickTurner i).turner j = s.turner j :=
    fun s i j h => State.onTurner_turner_ne _ h _
  refine (foldl_each State.turner hne (fun s i j h => ?_) (by decide) s (by revert t; decide)).trans (hsame s t)
  rw [hsame, hsame, hne s i j h]

/-- A kiln's times a tenth later, under its own state and the mode and the BLIND flag of its vessel. -/
theorem State.tickKilns_kiln (s : State) (k : Fin 2) :
    s.tickKilns.kiln k = { s.kiln k with
      firing := s.firingNext k
      cool := (s.kiln k).cool.tickIf (s.coolRuns k)
      step := if s.kilnMode k ≠ .off ∧ (s.kiln k).thermal ≠ .holding then (s.kiln k).step.map fun d => (d.1, d.2 - 1)
        else (s.kiln k).step } := by
  have hsame : ∀ (s : State) (k : Fin 2), (s.tickKiln k).kiln k = _ := fun s c => State.onKiln_kiln_same ..
  have hne : ∀ (s : State) (i j : Fin 2), j ≠ i → (s.tickKiln i).kiln j = s.kiln j :=
    fun s i j h => State.onKiln_kiln_ne _ h _
  refine (foldl_each State.kiln hne (fun s i j h => ?_) (by decide) s (by revert k; decide)).trans (hsame s k)
  have hfire : (s.tickKiln i).firingNext j = s.firingNext j := by
    unfold State.firingNext State.firingRuns
    rw [hne s i j h]
    rfl
  rw [hsame, hsame, hne s i j h, hfire]
  rfl

/-- Settles O9: each part of the tick changes the timers of its own records, and none the modes and phases that say which
timers run. -/
theorem tenthOfASecondRunsTheTimers : Obligations.TenthOfASecondRunsTheTimers := by
  intro s
  rw [State.tick_eq]
  generalize hs₁ : ((s.onClock Clock.tick).onTrunk fun t => { t with silence := t.silence.tick }) = s₁
  obtain ⟨vs, h₂⟩ := State.tickVessels_same s₁
  have hv := State.tickVessels_vessel s₁
  generalize s₁.tickVessels = s₂ at *
  obtain ⟨ss, h₃⟩ := State.tickSteeps_same s₂
  have hs := State.tickSteeps_steep s₂
  generalize s₂.tickSteeps = s₃ at *
  obtain ⟨cs, h₄⟩ := State.tickComps_same s₃
  have hc := State.tickComps_comp s₃
  generalize s₃.tickComps = s₄ at *
  obtain ⟨ts, h₅⟩ := State.tickTurners_same s₄
  have ht := State.tickTurners_turner s₄
  generalize s₄.tickTurners = s₅ at *
  obtain ⟨ks, h₆⟩ := State.tickKilns_same s₅
  have hk := State.tickKilns_kiln s₅
  generalize s₅.tickKilns = s₆ at *
  have hv₂ : ∀ v, s₂.vessel v = { s.vessel v with watch := (s.vessel v).watch.tick } := fun v => by rw [hv v, ← hs₁]; rfl
  have hv₃ : ∀ v, s₃.vessel v = s₂.vessel v := fun v => by rw [h₃]; rfl
  have hv₅ : ∀ v, s₅.vessel v = s₂.vessel v := fun v => by rw [h₅, h₄, h₃]; rfl
  refine ⟨?_, ?_, fun v => ?_, fun i => ?_, fun c => ?_, fun t => ?_, fun k => ?_, ?_, ?_⟩
  · rw [h₆, h₅, h₄, h₃, h₂, ← hs₁]; rfl
  · rw [h₆, h₅, h₄, h₃, h₂, ← hs₁]; rfl
  · exact Eq.trans (by rw [h₆, h₅, h₄, h₃]; rfl) (hv₂ v)
  · have h₀ : s₂.steep i = s.steep i := by rw [h₂, ← hs₁]; rfl
    refine Eq.trans (b := s₃.steep i) (by rw [h₆, h₅, h₄]; rfl) ?_
    rw [hs, h₀]
    simp [State.phaseTimerRuns, State.waitRuns, State.steepMode, State.steepBlind, hv₂, Timer.tickIf, Timer.tick,
      Bool.or_eq_true]
    constructor <;> congr
  · have h₀ : s₃.comp c = s.comp c := by rw [h₃, h₂, ← hs₁]; rfl
    refine Eq.trans (b := s₄.comp c) (by rw [h₆, h₅]; rfl) ?_
    rw [hc, h₀]
    simp [State.compTimersRun, State.compMode, State.compBlind, hv₃, hv₂, Timer.tickIf, Timer.tick, and_assoc, h₀]
    constructor <;> congr
  · have h₀ : s₄.turner t = s.turner t := by rw [h₄, h₃, h₂, ← hs₁]; rfl
    refine Eq.trans (b := s₅.turner t) (by rw [h₆]; rfl) ?_
    rw [ht, h₀]
    rfl
  · have h₀ : s₅.kiln k = s.kiln k := by rw [h₅, h₄, h₃, h₂, ← hs₁]; rfl
    refine (hk k).trans ?_
    have hf : s₅.firingNext k = if (s.kiln k).phase = .firing ∧ s.kilnMode k = .auto ∧ s.kilnBlind k = false ∧
          (s.kiln k).burner ≠ some 3 ∧ ((s.kiln k).fields.any fun f => decide ((s.kiln k).firing < f.maxDur * 600)) = true
        then (s.kiln k).firing + 1 else (s.kiln k).firing := by
      unfold State.firingNext State.firingRuns
      simp only [State.kilnMode, State.kilnBlind, hv₅, hv₂, h₀]
      cases (s.kiln k).fields <;> simp [and_assoc]
    rw [hf]
    simp [State.coolRuns, State.kilnMode, State.kilnBlind, hv₅, hv₂, h₀, Timer.tickIf, Timer.tick]
    constructor <;> congr
  · rw [h₆, h₅, h₄, h₃, h₂, ← hs₁]; rfl
  · have h₀ : s₆.excise = s.excise ∧ s₆.mgmt = s.mgmt := by rw [h₆, h₅, h₄, h₃, h₂, ← hs₁]; exact ⟨rfl, rfl⟩
    simp [State.tickExcise, State.onRun, h₀, Timer.tickIf, Timer.tick]

end Sys2Proof.Machine
end

section
/-! PROOFS. The field line: the mark of the time base, staleness, the poll that is missed, and bad telegrams (R28, R168, R169,
R176 to R179). -/

namespace Sys2Proof.Machine

-- One declaration after the other: side by side, their stacks are more than the check's bound on memory.
set_option Elab.async false

/-! ## What a tick leaves -/

theorem State.tick_leaves (s : State) : ∃ c tr vs ss cs ts ks tf ex, s.tick = { s with
    clock := c, trunk := tr, vessels := vs, steeps := ss, comps := cs, turners := ts, kilns := ks, transfer := tf
    excise := ex } := by
  rw [State.tick_eq]
  obtain ⟨vs, h⟩ := State.tickVessels_same ((s.onClock Clock.tick).onTrunk fun t => { t with silence := t.silence.tick })
  rw [h]
  obtain ⟨ss, h⟩ := State.tickSteeps_same { (s.onClock Clock.tick).onTrunk (fun t => { t with silence := t.silence.tick }) with
    vessels := vs }
  rw [h]
  obtain ⟨cs, h⟩ := State.tickComps_same { (s.onClock Clock.tick).onTrunk (fun t => { t with silence := t.silence.tick }) with
    vessels := vs, steeps := ss }
  rw [h]
  obtain ⟨ts, h⟩ := State.tickTurners_same { (s.onClock Clock.tick).onTrunk (fun t => { t with silence := t.silence.tick }) with
    vessels := vs, steeps := ss, comps := cs }
  rw [h]
  obtain ⟨ks, h⟩ := State.tickKilns_same { (s.onClock Clock.tick).onTrunk (fun t => { t with silence := t.silence.tick }) with
    vessels := vs, steeps := ss, comps := cs, turners := ts }
  rw [h]
  exact ⟨_, _, _, _, _, _, _, _, _, rfl⟩

@[simp] theorem State.tick_field (s : State) : s.tick.field = s.field := by
  obtain ⟨_, _, _, _, _, _, _, _, _, h⟩ := s.tick_leaves
  rw [h]
@[simp] theorem State.tick_filter (s : State) : s.tick.filter = s.filter := by
  obtain ⟨_, _, _, _, _, _, _, _, _, h⟩ := s.tick_leaves
  rw [h]
@[simp] theorem State.tick_tables (s : State) : s.tick.tables = s.tables := by
  obtain ⟨_, _, _, _, _, _, _, _, _, h⟩ := s.tick_leaves
  rw [h]
@[simp] theorem State.tick_work (s : State) : s.tick.work = s.work := by
  obtain ⟨_, _, _, _, _, _, _, _, _, h⟩ := s.tick_leaves
  rw [h]

/-! ## Staleness (R28) -/

theorem State.live_onLive (s : State) (n m : Nat) (f : MpLive → MpLive) :
    (s.onLive n f).live m = if m = n then f (s.live n) else s.live m := by
  show ((s.intake.live.put n (f (s.live n))).get m).getD {} = _
  rw [Tbl.get_put]
  split <;> rfl

@[simp] theorem State.live_onLive_same (s : State) (n : Nat) (f : MpLive → MpLive) : (s.onLive n f).live n = f (s.live n) := by
  rw [State.live_onLive, if_pos rfl]

theorem Tbl.get_eq_none_of_lt {α : Type} {t : Tbl α} {n : Nat} (h : ∀ e ∈ t, n < e.1) : t.get n = none := by
  induction t with
  | nil => rfl
  | cons e t ih =>
    rw [Tbl.get_cons, if_neg (Nat.ne_of_gt (h _ (List.mem_cons_self ..))), ih fun x hx => h x (List.mem_cons_of_mem _ hx)]

/-- Each MP of a table has its status aged once. -/
theorem State.live_ageAll {t : Tbl MpEntry} (ht : t.wf = true) (s : State) (n : Nat) :
    (t.foldl (fun s e => s.onLive e.1 fun l => l.age e.2 s.timeNow) s).live n =
      match t.get n with
      | some e => (s.live n).age e s.timeNow
      | none => s.live n := by
  induction t generalizing s with
  | nil => rfl
  | cons e t ih =>
    obtain ⟨k, e⟩ := e
    obtain ⟨hk, ht⟩ := (Tbl.wf_cons k e t).1 ht
    rw [List.foldl_cons, ih ht, State.live_onLive, Tbl.get_cons]
    by_cases hn : k = n
    · subst hn
      rw [Tbl.get_eq_none_of_lt hk]
      simp
    · rw [if_neg hn, if_neg (Ne.symm hn)]
      rfl

theorem State.staleCheck_live {s : State} (h : s.tables.mp.wf = true) (n : Nat) : s.staleCheck.live n =
    match s.tables.mp.get n with
    | some e => (s.live n).age e s.timeNow
    | none => s.live n := State.live_ageAll h s n

theorem State.staleCheck_same (s : State) :
    s.staleCheck = { s with intake := { s.intake with live := s.staleCheck.intake.live } } := by
  obtain ⟨b, hb⟩ := foldl_sets (fun (s : State) (b : Tbl MpLive) => { s with intake := { s.intake with live := b } })
    (fun s => s.intake.live) (fun _ => rfl) (fun _ _ _ => rfl)
    (step := fun s e => s.onLive e.1 fun l => l.age e.2 s.timeNow) (fun _ _ => ⟨_, rfl⟩) s.tables.mp s
  rw [show s.staleCheck = _ from hb]

/-- The check reads nothing of the field line, and changes nothing of it. -/
theorem State.staleCheck_onField (s : State) (f : FieldLine → FieldLine) :
    (s.onField f).staleCheck = s.staleCheck.onField f :=
  List.foldl_hom (State.onField · f) (g₁ := fun (s : State) (e : Nat × MpEntry) => s.onLive e.1 fun l => l.age e.2 s.timeNow)
    (fun _ _ => rfl)

@[simp] theorem State.staleCheck_field (s : State) : s.staleCheck.field = s.field := by rw [State.staleCheck_same]
@[simp] theorem State.staleCheck_filter (s : State) : s.staleCheck.filter = s.filter := by rw [State.staleCheck_same]
@[simp] theorem State.staleCheck_tables (s : State) : s.staleCheck.tables = s.tables := by rw [State.staleCheck_same]
@[simp] theorem State.staleCheck_work (s : State) : s.staleCheck.work = s.work := by rw [State.staleCheck_same]

/-! ## The command window with nothing to send -/

/-- The end of a window with no entry in flight ends the cycle. -/
theorem State.endWindow_empty {s : State} (h : s.filter.queue = []) :
    s.endWindow = s.onField fun f => { f with busy := false, phase := .idle } := by
  unfold State.endWindow State.settleFlights
  rw [h]
  rfl

/-- A window opens with nothing queued, and ends at once. -/
theorem State.openWindow_empty {s : State} (h : s.filter.queue = []) :
    s.openWindow = s.onField fun f => { f with busy := false, phase := .idle } := by
  unfold State.openWindow State.windowCommands
  rw [h]
  exact State.endWindow_empty h

/-! ## The start of a cycle (R176, R177) -/

/-- A cycle without a slot head ends as it starts. -/
theorem State.startCycle_end {s : State} (hq : s.filter.queue = [])
    (h : (if s.field.adopt then s.tables.schedule else s.field.sched).heads.get
      ((s.field.cycle + 1) % timeModulus % 16) = none) :
    s.startCycle = s.staleCheck.onField fun f => { f with
      sched := if f.adopt then s.tables.schedule else f.sched
      adopt := false, cycle := (f.cycle + 1) % timeModulus, busy := false, polled := [], sent := [], phase := .idle } := by
  unfold State.startCycle
  dsimp only
  rw [State.staleCheck_onField, State.onField_field]
  dsimp only
  rw [h]
  exact State.openWindow_empty (by simp [hq])

/-- A cycle whose head names an active descriptor of a known station polls it. -/
theorem State.startCycle_polls {s : State} {d : Nat} {e : StationEntry} {x : Descriptor}
    (hx : (if s.field.adopt then s.tables.schedule else s.field.sched).desc d = x)
    (h : (if s.field.adopt then s.tables.schedule else s.field.sched).heads.get
      ((s.field.cycle + 1) % timeModulus % 16) = some d)
    (ha : x.active = true) (he : s.tables.station.get x.station = some e) :
    s.startCycle = s.staleCheck.onField fun f => { f with
      sched := if f.adopt then s.tables.schedule else f.sched
      adopt := false, cycle := (f.cycle + 1) % timeModulus, busy := true, polled := [x.station]
      sent := [telegram x.station s.ownAddr tPOLL f.seq []], seq := (f.seq + 1) % 256
      phase := .polling x.station e.window x.missLimit x.link 1 } := by
  unfold State.startCycle
  dsimp only
  rw [State.staleCheck_onField, State.onField_field]
  dsimp only
  rw [h]
  unfold State.walkOn State.walk
  have hown : s.staleCheck.ownAddr = s.ownAddr := by unfold State.ownAddr; rw [State.staleCheck_tables]
  simp [hx, ha, he, State.putField, hown]
  rfl

theorem State.onField_onField (s : State) (f g : FieldLine → FieldLine) :
    (s.onField f).onField g = s.onField fun x => g (f x) := rfl

theorem State.onField_congr {s : State} {f g : FieldLine → FieldLine} (h : f s.field = g s.field) : s.onField f = s.onField g := by
  unfold State.onField
  rw [h]

/-- The mark in a busy master is held, or lost. -/
theorem State.mark_busy {s : State} (h : s.field.busy = true) :
    s.mark = s.onField fun f => { f with heldMark := true, lost := if s.field.heldMark then satAdd max16 f.lost 1 else f.lost } := by
  unfold State.mark
  rw [if_pos h]
  cases hm : s.field.heldMark
  · simp
  · rw [if_pos rfl]
    refine State.onField_congr ?_
    simp [hm]

theorem State.mark_free {s : State} (h : s.field.busy = false) (hm : s.field.heldMark = false) : s.mark = s.startCycle := by
  unfold State.mark
  simp [h, hm]

theorem State.heldCycle_held {s : State} (h : s.field.busy = false) (hm : s.field.heldMark = true) :
    s.heldCycle = (s.onField fun f => { f with heldMark := false, late := satAdd max16 f.late 1 }).startCycle := by
  unfold State.heldCycle
  simp [h, hm]

theorem MpStatus.usable_iff {m : MpStatus} : m.usable = true ↔ m = .good ∨ m = .suspect := by
  cases m <;> simp [MpStatus.usable]

/-- A usable MP whose last good time is older than its limit is stale. -/
theorem MpLive.age_old {l : MpLive} {e : MpEntry} {now t : Nat} (h : l.lastGood = some t)
    (hs : l.status = .good ∨ l.status = .suspect) (ha : e.stale < (now + timeModulus - t) % timeModulus) :
    l.age e now = { l with status := .stale } := by
  unfold MpLive.age
  rw [h]
  exact if_pos ⟨MpStatus.usable_iff.2 hs, ha⟩

/-- Any other MP keeps its state. -/
theorem MpLive.age_young {l : MpLive} {e : MpEntry} {now : Nat}
    (h : l.lastGood = none ∨ (l.status ≠ .good ∧ l.status ≠ .suspect) ∨
      ∃ t, l.lastGood = some t ∧ (now + timeModulus - t) % timeModulus ≤ e.stale) : l.age e now = l := by
  unfold MpLive.age
  cases hg : l.lastGood with
  | none => rfl
  | some t =>
    refine if_neg fun hn => ?_
    rcases h with h | h | ⟨u, hu, ha⟩
    · rw [hg] at h
      cases h
    · exact absurd (MpStatus.usable_iff.1 hn.1) (not_or.2 h)
    · rw [hg, Option.some_inj] at hu
      subst hu
      exact absurd hn.2 (Nat.not_lt.2 ha)

/-- Settles O10: the check ages each MP once, and the mark and the held mark are the start of a cycle. -/
theorem markIsHeldOrStartsItsCycle : Obligations.MarkIsHeldOrStartsItsCycle := by
  refine ⟨fun s hwf => ⟨State.staleCheck_same s, fun n hn => ?_, fun n e hn => ⟨fun t hg hst ha => ?_, fun h => ?_⟩⟩,
    fun s hw => ⟨fun hb => ?_, fun hb hq => ?_⟩, fun s d e hw hb => ?_⟩
  · rw [State.staleCheck_live hwf, hn]
  · rw [State.staleCheck_live hwf, hn]
    exact MpLive.age_old hg hst ha
  · rw [State.staleCheck_live hwf, hn]
    exact MpLive.age_young h
  · have hs : (s.tick.mark).work = [] := by rw [State.mark_busy (by simp [hb])]; simp [hw]
    show Host.Outcome.next (s.tick.mark).settle = _
    rw [State.settle_of_idle hs, State.mark_busy (by simp [hb]), State.tick_field]
  · intro n sched hh
    refine ⟨fun hm => ?_, fun hm => ?_⟩
    · have hs := (State.mark_free (s := s.tick) (by simp [hb]) (by simp [hm])).trans
        (State.startCycle_end (by simp [hq]) (by simpa using hh))
      show Host.Outcome.next (s.tick.mark).settle = _
      rw [State.settle_of_idle (by rw [hs]; simp [hw]), hs]
      refine congrArg Host.Outcome.next (State.onField_congr ?_)
      simp [sched, n]
    · have hs := (State.heldCycle_held hb hm).trans (State.startCycle_end hq hh)
      show Host.Outcome.next (s.heldCycle).settle = _
      rw [State.settle_of_idle (by rw [hs]; simp [hw]), hs, State.staleCheck_onField, State.onField_onField]
      refine congrArg Host.Outcome.next (State.onField_congr ?_)
      simp [sched, n]
  · intro n sched x hh ha he
    refine ⟨fun hm => ?_, fun hm => ?_⟩
    · have hs := (State.mark_free (s := s.tick) (by simp [hb]) (by simp [hm])).trans
        (State.startCycle_polls (d := d) (x := x) (by simp [x, sched]) (by simpa using hh) ha (by simpa using he))
      show Host.Outcome.next (s.tick.mark).settle = _
      rw [State.settle_of_idle (by rw [hs]; simp [hw]), hs]
      refine congrArg Host.Outcome.next (State.onField_congr ?_)
      simp [sched, n, State.ownAddr]
    · have hs := (State.heldCycle_held hb hm).trans (State.startCycle_polls (x := x) rfl hh ha he)
      show Host.Outcome.next (s.heldCycle).settle = _
      rw [State.settle_of_idle (by rw [hs]; simp [hw]), hs, State.staleCheck_onField, State.onField_onField]
      refine congrArg Host.Outcome.next (State.onField_congr ?_)
      simp [sched, n]

/-! ## The status of an entry (R27) -/

/-- Settles O12: the quality is tested first, then the value against the range. -/
theorem entrySetsStatusAndValue : Obligations.EntrySetsStatusAndValue := by
  intro m e x now v r
  by_cases hq : x.quality ≠ 0 ∧ x.quality ≠ 1
  · have hr : r = { m with status := .failed } := if_pos hq
    exact ⟨by rw [hr], by rw [hr], fun _ _ => by simp [hr], fun h => absurd h (by omega)⟩
  · have hr : r = if v.val < e.rmin then { m with status := .clamped, last := some { v with val := e.rmin } }
        else if e.rmax < v.val then { m with status := .clamped, last := some { v with val := e.rmax } }
        else { m with status := if x.quality = 0 then .good else .suspect, last := some v, lastGood := some now } := if_neg hq
    rcases lt_or_ge v.val e.rmin with hlo | hlo
    · rw [if_pos hlo] at hr
      exact ⟨by rw [hr], by rw [hr], fun h0 h1 => absurd ⟨h0, h1⟩ hq, fun _ => ⟨fun _ => by simp [hr],
        fun h => absurd h (by omega), fun h => absurd h (by omega)⟩⟩
    · rw [if_neg (by omega)] at hr
      rcases lt_or_ge e.rmax v.val with hhi | hhi
      · rw [if_pos hhi] at hr
        exact ⟨by rw [hr], by rw [hr], fun h0 h1 => absurd ⟨h0, h1⟩ hq, fun _ => ⟨fun h => absurd h (by omega),
          fun _ _ => by simp [hr], fun _ h => absurd h (by omega)⟩⟩
      · rw [if_neg (by omega)] at hr
        exact ⟨by rw [hr], by rw [hr], fun h0 h1 => absurd ⟨h0, h1⟩ hq, fun _ => ⟨fun h => absurd h (by omega),
          fun _ h => absurd h (by omega), fun _ _ => by simp [hr]⟩⟩

/-! ## A missed poll (R178, R179) -/

theorem State.answerMissed_down {s : State} {st lim : Nat} {hl : Health} (h : s.field.health.get st = some hl)
    (hup : hl.up = true) (hlim : lim ≤ satAdd 15 hl.misses 1) :
    s.answerMissed st lim = (s.onField fun f => { f with
      health := f.health.put st { hl with misses := satAdd 15 hl.misses 1, up := false } }).postStation st false
        (satAdd 15 hl.misses 1) := by
  unfold State.answerMissed
  rw [h]
  simp [hup, hlim]

theorem State.answerMissed_counted {s : State} {st lim : Nat} {hl : Health} (h : s.field.health.get st = some hl)
    (hlim : hl.up = false ∨ satAdd 15 hl.misses 1 < lim) :
    s.answerMissed st lim = s.onField fun f => { f with
      health := f.health.put st { hl with misses := satAdd 15 hl.misses 1 } } := by
  unfold State.answerMissed
  rw [h]
  have hd : (hl.up && decide (lim ≤ satAdd 15 hl.misses 1)) = false := by
    rcases hlim with h | h
    · rw [h]; rfl
    · rw [decide_eq_false (Nat.not_le.2 h), Bool.and_false]
  simp [hd]

/-- Settles O14: the miss is counted before the limit is tested, and the walk has no link to go on with. -/
theorem missedPollCountsAgainstTheStation : Obligations.MissedPollCountsAgainstTheStation := by
  intro s st w lim visits hl hw hq hp hh n a close
  have hx : exec .responseWindowExpiry s = .next ((a.answerMissed st lim).openWindow).settle := by
    have h : s.pollExpires = (a.answerMissed st lim).openWindow := by
      unfold State.pollExpires
      rw [hp]
      rfl
    exact congrArg (fun t : State => Host.Outcome.next t.settle) h
  have hh' : a.field.health.get st = some hl := hh
  have hclose : ∀ t : State, t.filter.queue = [] → t.work = [] → t.openWindow.settle = close t := fun t h1 h2 => by
    rw [State.openWindow_empty h1]
    exact State.settle_of_idle h2
  refine ⟨fun hup hlim => ?_, fun h => ?_⟩
  · have hm := State.answerMissed_down hh' hup hlim
    rw [hx, hm, hclose _ (by simp [a, hq, State.postStation]) (by simp [a, hw, State.postStation])]
    rfl
  · have hm := State.answerMissed_counted hh' h
    rw [hx, hm, hclose _ (by simp [a, hq]) (by simp [a, hw])]
    rfl

/-! ## Bad telegrams (R168, R169, R178) -/

/-- A telegram that passes its check and fails another test of the field line. -/
theorem State.fieldArrives_bad {s : State} {b : List Byte} (hc : checkPasses b = true)
    (h : frameOf b = none ∨ ∃ f, frameOf b = some f ∧ (f.dst ≠ s.ownAddr ∨ (f.kind ≠ tSAMPLE ∧ f.kind ≠ tCONFIRM) ∨
      (f.kind = tSAMPLE ∧ samplePayloadOk f.payload = false) ∨
      (f.kind = tCONFIRM ∧ ∀ tag r : Byte, f.payload = [tag, r] → r ≠ 1 ∧ r ≠ 2))) :
    s.fieldArrives b = s.fieldBad := by
  unfold State.fieldArrives
  rw [if_pos hc]
  rcases h with h | ⟨f, hf, h⟩
  · rw [h]
  · rw [hf]
    dsimp only
    by_cases hd : f.dst ≠ s.ownAddr
    · rw [if_pos hd]
    rw [if_neg hd]
    rcases h with h | ⟨h1, h2⟩ | ⟨h1, h2⟩ | ⟨h1, h2⟩
    · exact absurd h hd
    · rw [if_neg h1, if_neg h2]
    · rw [if_pos h1]
      unfold State.sampleArrives
      rw [h2]
      rfl
    · rw [if_neg (by rw [h1]; decide), if_pos h1]
      split
      · next tag r hp => rw [if_neg (h2 tag r hp).1, if_neg (h2 tag r hp).2]
      · rfl

/-- Settles O15: each discard counts, and sets nothing out. -/
theorem badTelegramsAreCounted : Obligations.BadTelegramsAreCounted := by
  refine ⟨fun s hw => ⟨fun b hc => ?_, fun b hc h => ?_, fun src seq p hp hn => ?_⟩,
    fun s b hw => ⟨fun hc => ?_, fun hc hf => ?_, fun f hc hf hsrc hdst h63 => ?_⟩⟩
  · show Host.Outcome.next (s.fieldArrives b).settle = _
    unfold State.fieldArrives
    rw [if_neg (by simp [hc])]
    exact congrArg Host.Outcome.next (State.settle_of_idle hw)
  · show Host.Outcome.next (s.fieldArrives b).settle = _
    rw [State.fieldArrives_bad hc h]
    exact congrArg Host.Outcome.next (State.settle_of_idle hw)
  · show Host.Outcome.next (s.sampleArrives src.toNat seq.toNat p).settle = _
    unfold State.sampleArrives State.fieldSample
    rw [if_pos hp]
    split
    · next st w lim next visits hph =>
      rw [if_neg (fun h => hn w lim next visits (by rw [hph, h]))]
      exact congrArg Host.Outcome.next (State.settle_of_idle hw)
    · exact congrArg Host.Outcome.next (State.settle_of_idle hw)
    · exact congrArg Host.Outcome.next (State.settle_of_idle hw)
  · show Host.Outcome.next (s.trunkArrives b).settle = _
    unfold State.trunkArrives
    rw [if_neg (by simp [hc])]
    exact congrArg Host.Outcome.next (State.settle_of_idle hw)
  · show Host.Outcome.next (s.trunkArrives b).settle = _
    unfold State.trunkArrives
    rw [if_pos hc, hf]
    exact congrArg Host.Outcome.next (State.settle_of_idle hw)
  · show Host.Outcome.next (s.trunkArrives b).settle = _
    have hh : s.heard f.src = s := by unfold State.heard; rw [if_pos hsrc]
    unfold State.trunkArrives
    rw [if_pos hc, hf]
    dsimp only
    rw [hh, if_neg hdst, if_neg (by omega)]
    exact congrArg Host.Outcome.next (State.settle_of_idle hw)

end Sys2Proof.Machine
end

section
/-! PROOFS. The sample intake: the answer to a poll, and what an entry of it sets off (R26 to R30, R39). -/

namespace Sys2Proof.Machine

-- One declaration after the other: side by side, their stacks are more than the check's bound on memory.
set_option Elab.async false

/-! ## One entry -/

/-- A usable entry sets status, value and time. -/
theorem MpLive.take_usable {m : MpLive} {e : MpEntry} {x : SampleEntry} (now : Nat) (hq : x.quality < 2)
    (hlo : e.rmin ≤ (entryValue e.kind x.bits).val) (hhi : (entryValue e.kind x.bits).val ≤ e.rmax) :
    m.take e x now = { m with
      status := if x.quality = 0 then .good else .suspect, last := some (entryValue e.kind x.bits), lastGood := some now } := by
  unfold MpLive.take
  rw [if_neg (by omega)]
  dsimp only
  rw [if_neg (by omega), if_neg (by omega)]

theorem State.compare_of_none {s : State} {n : Nat} (h : (s.live n).comp = none) (e : MpEntry) (v : Int) :
    s.compare n e v = s := by
  unfold State.compare
  rw [h]

theorem State.watchDelivery_off {e : MpEntry} (h : e.watch = false) (s : State) (n : Nat) : s.watchDelivery n e = s := by
  unfold State.watchDelivery
  rw [h]

theorem State.takeMapped_usable {s : State} {n : Nat} {e : MpEntry} {x : SampleEntry} (hq : x.quality < 2)
    (hlo : e.rmin ≤ (entryValue e.kind x.bits).val) (hhi : (entryValue e.kind x.bits).val ≤ e.rmax) :
    s.takeMapped n e x = (((s.onLive n fun m => { m with
      status := if x.quality = 0 then .good else .suspect, last := some (entryValue e.kind x.bits)
      lastGood := some s.timeNow }).compare n e (entryValue e.kind x.bits).val).deliver n e
        (entryValue e.kind x.bits)).watchDelivery n e := by
  have ht : ∀ m : MpLive, m.take e x s.timeNow = _ := fun m => MpLive.take_usable s.timeNow hq hlo hhi
  unfold State.takeMapped
  simp only [ht]
  split
  · next v h1 h2 =>
    rw [State.live_onLive_same] at h2
    cases h2
    rfl
  · next h =>
    have hu : MpStatus.usable (if x.quality = 0 then .good else .suspect) = true := by split <;> rfl
    exact (h (entryValue e.kind x.bits) (by rw [State.live_onLive_same]; exact hu) (by rw [State.live_onLive_same])).elim

theorem MpLive.take_comp (m : MpLive) (e : MpEntry) (x : SampleEntry) (now : Nat) : (m.take e x now).comp = m.comp := by
  unfold MpLive.take
  dsimp only
  split_ifs <;> rfl

/-- An entry of an MP without comparator and watch, whose owner takes nothing from it. -/
theorem State.takeMapped_quiet {s : State} {n : Nat} {e : MpEntry} {x : SampleEntry} (hw : e.watch = false)
    (hc : (s.live n).comp = none) (ho : e.owner = .none ∨ s.mpOf e.owner e.role ≠ some n) :
    s.takeMapped n e x = s.onLive n fun m => m.take e x s.timeNow := by
  have hcomp : ((s.onLive n fun m => m.take e x s.timeNow).live n).comp = none := by
    rw [State.live_onLive_same, MpLive.take_comp, hc]
  unfold State.takeMapped
  dsimp only
  split
  · rw [State.compare_of_none hcomp, State.watchDelivery_off hw]
    generalize hx : s.onLive n _ = t
    have ho : e.owner = .none ∨ t.mpOf e.owner e.role ≠ some n := by rw [← hx]; exact ho
    rcases ho with ho | ho
    · exact State.deliver_none ho _
    · exact State.deliver_of_not_first ho _
  · rfl

/-! ## The watch (R39) -/

/-- The value of a watch MP of a steep or compartment. -/
theorem State.watchDelivery_on {s : State} {n : Nat} {e : MpEntry} {v : Fin 12} (ho : e.owner = .vessel v) (hw : e.watch = true) :
    s.watchDelivery n e = s.watchSample v n := by
  unfold State.watchDelivery
  rw [ho, hw]

/-- A kiln alone is told of BLIND. -/
theorem State.tellBlind_of_lt {v : Fin 12} (h : v.val < 10) (s : State) (b : Bool) : s.tellBlind v b = s := by
  unfold State.tellBlind vesselIs
  split
  · next k hk =>
    split_ifs at hk
  · rfl
  · rfl

/-! ## The answer (R26, R178) -/

theorem State.answerGood_up {s : State} {st : Nat} {hl : Health} (h : s.field.health.get st = some hl) (hup : hl.up = true) :
    s.answerGood st = s.onField fun f => { f with
      health := f.health.put st { up := true, misses := 0, lastGood := some s.timeNow } } := by
  unfold State.answerGood
  rw [h]
  exact if_pos hup

/-- The answer to a poll with no link to go on with: the entries are taken, and the window closes. -/
theorem State.sample_answers {s t : State} {src seq c q h l : Byte} {w lim visits : Nat} {hl : Health}
    (hp : s.field.phase = .polling src.toNat w lim none visits) (hh : s.field.health.get src.toNat = some hl)
    (hup : hl.up = true)
    (ht : (s.onField fun f => { f with
      phase := .idle, health := f.health.put src.toNat { up := true, misses := 0, lastGood := some s.timeNow } }).takeSample
        src.toNat seq.toNat [c, q, h, l] = t) (hq : t.filter.queue = []) (hw : t.work = []) :
    exec (.sampleTelegram src seq [c, q, h, l]) s = .next (t.onField fun f => { f with busy := false, phase := .idle }) := by
  have hs : s.sampleArrives src.toNat seq.toNat [c, q, h, l] = t.openWindow := by
    unfold State.sampleArrives State.fieldSample
    rw [if_pos (by simp [samplePayloadOk]), hp]
    dsimp only
    rw [if_pos rfl, State.answerGood_up (s := s.onField fun f => { f with phase := .idle }) hh hup, State.onField_onField]
    exact congrArg State.openWindow ht
  show Host.Outcome.next (s.sampleArrives src.toNat seq.toNat [c, q, h, l]).settle = _
  rw [hs, State.openWindow_empty hq]
  exact congrArg Host.Outcome.next (State.settle_of_idle hw)

/-- A telegram of one entry: the entry, and then the forwarding. -/
theorem State.takeSample_one (s : State) (src seq : Nat) (c q h l : Byte) {x : SampleEntry}
    (hx : x = { channel := c.toNat, quality := q.toNat / 64, bits := (q.toNat % 64) * 65536 + h.toNat * 256 + l.toNat }) :
    s.takeSample src seq [c, q, h, l] = if (s.takeEntry src x).forwardWanted src [x] then
      (s.takeEntry src x).forward { src, seq, payload := [c, q, h, l] } else s.takeEntry src x := by
  rw [hx]
  rfl

/-- A telegram of one entry, of an MP that asks for no forwarding. -/
theorem State.takeSample_mapped {s : State} {src seq : Nat} {c q h l : Byte} {n : Nat} {e : MpEntry} {x : SampleEntry}
    (hx : x = { channel := c.toNat, quality := q.toNat / 64, bits := (q.toNat % 64) * 65536 + h.toNat * 256 + l.toNat })
    (hm : s.mapEntry src x.channel = some (n, e)) (hf : e.forward = false) (hw : (s.takeMapped n e x).work = [])
    (ht : (s.takeMapped n e x).tables = s.tables) : s.takeSample src seq [c, q, h, l] = s.takeMapped n e x := by
  have hone : s.takeEntry src x = s.takeMapped n e x := by
    unfold State.takeEntry
    rw [hm]
    exact State.settle_of_idle hw
  have hm' : (s.takeMapped n e x).mapEntry src x.channel = some (n, e) := by
    unfold State.mapEntry
    rw [ht]
    exact hm
  rw [State.takeSample_one s src seq c q h l hx, hone, if_neg (by simp [State.forwardWanted, hm', hf])]

/-- A usable state of a kiln's burner is handed to its sequencer, which keeps it. -/
theorem State.deliver_burner {s : State} {n : Nat} {e : MpEntry} {k : Fin 2} (ho : e.owner = .vessel (kilnNo k))
    (hr : e.role = .burnerState) (hm : s.mpOf e.owner e.role = some n) (v : MpValue) :
    s.deliver n e v = s.onKiln k fun y => { y with burner := some v.val } := by
  unfold State.deliver
  rw [if_neg (by simp [hm]), ho]
  dsimp only
  unfold State.deliverVessel State.runEmptyTest
  rw [vesselIs_kilnNo, hr]
  dsimp only
  split
  · rw [if_neg (by simp [emptyRole])]
  · rfl

/-! ## The field line's own state stands apart -/

theorem State.onField_onLive (s : State) (f : FieldLine → FieldLine) (n : Nat) (g : MpLive → MpLive) :
    (s.onField f).onLive n g = (s.onLive n g).onField f := rfl
theorem State.onField_onIntake (s : State) (f : FieldLine → FieldLine) (g : Intake → Intake) :
    (s.onField f).onIntake g = (s.onIntake g).onField f := rfl
theorem State.onField_onTrunk (s : State) (f : FieldLine → FieldLine) (g : Trunk → Trunk) :
    (s.onField f).onTrunk g = (s.onTrunk g).onField f := rfl
theorem State.onField_onNotices (s : State) (f : FieldLine → FieldLine) (g : Notices → Notices) :
    (s.onField f).onNotices g = (s.onNotices g).onField f := rfl
theorem State.onField_onKiln (s : State) (f : FieldLine → FieldLine) (k : Fin 2) (g : Kiln → Kiln) :
    (s.onField f).onKiln k g = (s.onKiln k g).onField f := rfl

/-- The source of a notice has of the field line's state the station health alone. -/
theorem State.sourceState_onField {s : State} {f : FieldLine → FieldLine} (h : (f s.field).health = s.field.health) (m : Notice) :
    (s.onField f).sourceState m = s.sourceState m := by
  unfold State.sourceState
  rw [State.onField_field, h]
  rfl

theorem State.promoteMark_onField {s : State} {f : FieldLine → FieldLine} (h : (f s.field).health = s.field.health) :
    (s.onField f).promoteMark = s.promoteMark.onField f := by
  unfold State.promoteMark
  rw [State.onField_notices]
  split
  · rw [State.sourceState_onField h]
    rfl
  · rfl

theorem State.takeTelegram_onField {s : State} {f : FieldLine → FieldLine} (h : (f s.field).health = s.field.health) :
    (s.onField f).takeTelegram = s.takeTelegram.onField f := by
  unfold State.takeTelegram
  rw [State.onField_trunk, State.onField_notices]
  split
  · rfl
  · rfl
  · rw [State.onField_onNotices, State.promoteMark_onField (s := s.onNotices _) h]
    rfl
  · rfl
  · rfl

theorem State.kick_onField {s : State} {f : FieldLine → FieldLine} (h : (f s.field).health = s.field.health) :
    (s.onField f).kick = s.kick.onField f := by
  unfold State.kick
  rw [State.onField_trunk, State.onField_mgmt]
  split
  · exact State.takeTelegram_onField h
  · rfl

theorem State.forward_onField {s : State} {f : FieldLine → FieldLine} (h : (f s.field).health = s.field.health) (u : UpSample) :
    (s.onField f).forward u = (s.forward u).onField f := by
  unfold State.forward
  rw [State.onField_trunk]
  split
  · rw [State.onField_onTrunk, State.kick_onField (s := s.onTrunk _) h]
  · rfl

theorem State.onVessel_onVessel (s : State) (v : Fin 12) (f g : VesselRec → VesselRec) :
    (s.onVessel v f).onVessel v g = s.onVessel v fun r => g (f r) := by
  simp [State.onVessel, onBank]

/-! ## The answer to a poll -/

/-- Settles O11: the entry is taken before the window, with nothing queued, closes. -/
theorem sampleAnswersThePoll : Obligations.SampleAnswersThePoll := by
  refine ⟨?_, fun s st x n e hm hq hlo hhi => ?_, fun s n e v i ho hw hv hi => ?_⟩
  · intro s src seq c q h l w lim visits hl hw hq hp hh hup x a
    let b := s.onField fun f => { f with
      phase := .idle, health := f.health.put src.toNat { up := true, misses := 0, lastGood := some s.timeNow } }
    have hx : x = { channel := c.toNat, quality := q.toNat / 64, bits := (q.toNat % 64) * 65536 + h.toNat * 256 + l.toNat } := rfl
    clear_value x
    have hba : (b.onField fun f => { f with busy := false, phase := .idle }) = a := rfl
    have hans : ∀ t : State, b.takeSample src.toNat seq.toNat [c, q, h, l] = t → t.filter.queue = [] → t.work = [] →
        exec (.sampleTelegram src seq [c, q, h, l]) s =
          .next (t.onField fun f => { f with busy := false, phase := .idle }) := fun _ => State.sample_answers hp hh hup
    refine ⟨fun n e hm hwatch hfwd hc => ?_, fun hm => ?_⟩
    · have hmap := State.takeSample_mapped (s := b) (seq := seq.toNat) hx hm hfwd
      refine ⟨fun ho => ?_, fun k ho hr hmp hqu hlo hhi => ?_⟩
      · have ht : b.takeMapped n e x = b.onLive n fun m => m.take e x s.timeNow := State.takeMapped_quiet hwatch hc ho
        rw [ht] at hmap
        rw [hans _ (hmap hw rfl) hq hw, ← State.onField_onLive, hba]
      · have ht : b.takeMapped n e x = (b.onLive n fun m => m.take e x s.timeNow).onKiln k fun y =>
            { y with burner := some (entryValue e.kind x.bits).val } := by
          rw [State.takeMapped_usable hqu hlo hhi, State.compare_of_none (by rw [State.live_onLive_same]; exact hc),
            State.watchDelivery_off hwatch, State.deliver_burner (s := b.onLive n _) ho hr hmp, show b.timeNow = s.timeNow from rfl]
          simp only [MpLive.take_usable s.timeNow hqu hlo hhi]
        rw [ht] at hmap
        rw [hans _ (hmap hw rfl) hq hw, ← State.onField_onKiln, ← State.onField_onLive, hba]
    · intro u
      let y := b.onIntake fun i => { i with unmapped := satAdd max32 i.unmapped 1 }
      have hyu : (y.onField fun f => { f with busy := false, phase := .idle }) = u := by
        rw [← State.onField_onIntake, hba]
      have hone : b.takeEntry src.toNat x = y := by
        unfold State.takeEntry
        rw [show b.mapEntry src.toNat x.channel = none from hm]
      have hfw : y.forwardWanted src.toNat [x] = (s.tables.station.get src.toNat).any (·.fwdUnmapped) := by
        unfold State.forwardWanted
        simp [show y.mapEntry src.toNat x.channel = none from hm]
        rfl
      have ht := State.takeSample_one b src.toNat seq.toNat c q h l hx
      rw [hone, hfw] at ht
      by_cases hf : (s.tables.station.get src.toNat).any (·.fwdUnmapped) = true
      · rw [if_pos hf] at ht ⊢
        have hsame := State.forward_same y { src := src.toNat, seq := seq.toNat, payload := [c, q, h, l] }
        rw [hans _ ht (by rw [hsame.filter]; exact hq) (by rw [hsame.work]; exact hw), ← State.forward_onField rfl, hyu]
      · rw [if_neg hf] at ht ⊢
        rw [hans _ ht hq hw, hyu]
  · intro v
    unfold State.takeEntry
    rw [hm]
    exact congrArg State.settle (State.takeMapped_usable hq hlo hhi)
  · have hd := State.watchDelivery_on (s := s) (n := n) ho hw
    have hload : s.loadWatch v = s.onVessel v fun r => { r with watch := some (i * 10) } := by
      unfold State.loadWatch
      rw [hi]
    refine ⟨fun hm => hd.trans (if_pos hm), fun hm hb => (hd.trans (if_neg hm)).trans ?_,
      fun hm hb => (hd.trans (if_neg hm)).trans ?_⟩
    · rw [hload]
      unfold State.clearBlind
      rw [if_neg (by simp [hb])]
    · rw [hload]
      unfold State.clearBlind
      rw [if_pos (by simp [hb]), State.tellBlind_of_lt hv, State.onVessel_onVessel]
      rfl

end Sys2Proof.Machine
end

section
/-! PROOFS. The limit comparators: Table 2-6, settling, the stage high limits, and the MPs at a COMMIT (R31 to R37). -/

namespace Sys2Proof.Machine

-- One declaration after the other: side by side, their stacks are more than the check's bound on memory.
set_option Elab.async false

/-! ## What the sequencers' own work keeps -/

/-- A kiln but for its thermal condition, its cap and its step timer. -/
def Kiln.SameStage (x y : Kiln) : Prop :=
  y = { x with thermal := y.thermal, heatSeen := y.heatSeen, cap := y.cap, step := y.step }

/-- A property that no offer, notice, demand or record of a steep, turner or kiln touches: the sequencers' own work keeps it. -/
structure State.SelfKept (R : State → Prop) : Prop where
  offers : ∀ {s t : State}, R s → s.SameButOffers t → R t
  onSteep : ∀ {s : State} {i : Fin 4} {f : Steep → Steep}, R s → R (s.onSteep i f)
  onTurner : ∀ {s : State} {i : Fin 2} {f : Turner → Turner}, R s → R (s.onTurner i f)
  onKiln : ∀ {s : State} {i : Fin 2} {f : Kiln → Kiln}, (∀ x : Kiln, x.SameStage (f x)) → R s → R (s.onKiln i f)
  onDemand : ∀ {s : State} {c : Fin 6} {f : Option Demand → Option Demand},
    R s → R (s.onComp c fun x => { x with demand := f x.demand })

theorem State.ite_of {R : State → Prop} {c : Prop} [Decidable c] {s t : State} (h : R s) (h' : R t) : R (if c then s else t) := by
  split
  · exact h
  · exact h'

namespace State.SelfKept

variable {R : State → Prop} {s : State} (w : State.SelfKept R) (h : R s)
include w h

theorem post {k : NoticeKind} {c : SourceClass} {i n : Nat} {v : Int} : R (s.post k c i n v) :=
  w.offers h (State.SameButOffers.refl s).post
theorem sendTo {o : Origin} {p : Purpose} {st : Option Nat} {code : Nat} : R (s.sendTo o p st code) :=
  w.offers h (State.SameButOffers.refl s).sendTo
theorem sendArgTo {o : Origin} {p : Purpose} {st : Option Nat} {code : Nat} {x : Int} : R (s.sendArgTo o p st code x) :=
  w.offers h (State.SameButOffers.refl s).sendArgTo

/-! The CO2 override -/

theorem fanStop {i : Fin 4} : R (s.fanStop i) := State.ite_of h (w.sendTo h)

theorem fanRun {i : Fin 4} : R (s.fanRun i) := by
  unfold State.fanRun
  split
  · exact h
  · split
    · exact w.sendArgTo (w.sendTo h)
    · exact h

theorem fanOfStep {i : Fin 4} : R (s.fanOfStep i) := by
  unfold State.fanOfStep
  split
  · exact w.fanRun h
  · exact w.fanRun h
  · exact w.fanStop h
  · exact w.fanStop h
  · exact w.fanStop h
  · exact h
  · exact h
  · exact h
  · exact h

theorem co2Refresh {i : Fin 4} : R (s.co2Refresh i) := by
  unfold State.co2Refresh
  dsimp only
  split
  · exact h
  · refine State.ite_of ?_ (State.ite_of (w.fanOfStep (w.onSteep h)) (w.onSteep h))
    unfold State.fanOverride
    dsimp only
    split
    · exact w.sendArgTo (w.sendTo (w.onSteep h))
    · exact w.sendTo (w.onSteep h)

/-! Demands and turners -/

theorem turnerTo {i : Fin 2} {f : Turner → Turner} : R (s.turnerTo i f) := w.post (w.onTurner h)

theorem offerSprinkle {c : Fin 6} : R (s.offerSprinkle c) := by
  unfold State.offerSprinkle
  split
  · exact State.ite_of (w.sendArgTo h) h
  · exact h

theorem startPass {t : Fin 2} {c : Fin 6} : R (s.startPass t c) := w.offerSprinkle (w.turnerTo (w.sendTo (w.onTurner h)))

theorem grantTurner {c : Fin 6} {t : Fin 2} : R (s.grantTurner c t) := by
  have hgrant := w.onTurner (i := t) (f := fun x => { x with assigned := some c }) (w.onDemand (c := c)
    (f := fun o => o.map fun d => { d with turner := some t }) h)
  exact State.ite_of (w.startPass hgrant) (w.turnerTo (w.sendArgTo (w.onTurner (w.onTurner hgrant))))

theorem turnerArbiter : R s.turnerArbiter := by
  unfold State.turnerArbiter
  generalize s.pendingDemands = l
  induction l generalizing s with
  | nil => exact h
  | cons d l ih =>
    refine ih ?_
    dsimp only
    split
    · exact w.grantTurner h
    · exact h

theorem raiseDemand {c : Fin 6} {k : DemandKind} : R (s.raiseDemand c k) := by
  have hdemand : ∀ d, R (s.onComp c fun x => { x with demand := some d }) := fun d => w.onDemand (f := fun _ => some d) h
  unfold State.raiseDemand
  split
  · split
    · exact w.turnerArbiter (hdemand _)
    · exact State.ite_of (State.ite_of (w.turnerArbiter (hdemand _)) (hdemand _)) h
  · exact h

/-! The thermal condition -/

theorem restCap {k : Fin 2} : R (s.restCap k) := State.ite_of (w.onKiln (fun _ => rfl) h) h
theorem setCap {k : Fin 2} {c : Nat} : R (s.setCap k c) := by
  have hset : R (s.onKiln k fun y => { y with cap := c }) := w.onKiln (fun _ => rfl) h
  exact State.ite_of (w.restCap h) (w.sendArgTo (w.restCap hset))

theorem loadStep {k : Fin 2} {d : StepDir} : R (s.loadStep k d) := by
  unfold State.loadStep
  split
  · exact State.ite_of (w.onKiln (fun _ => rfl) h) h
  · exact h

theorem loadRecovery {k : Fin 2} : R (s.loadRecovery k) := State.ite_of (w.loadStep h) (w.onKiln (fun _ => rfl) h)

theorem retakeThermal {k : Fin 2} {b : Bool} : R (s.retakeThermal k b) := by
  unfold State.retakeThermal
  dsimp only
  split
  · exact w.onKiln (fun _ => rfl) h
  · have hhot : R (s.onKiln k fun y => { y with thermal := .hot, heatSeen := false }) := w.onKiln (fun _ => rfl) h
    exact State.ite_of hhot (State.ite_of (State.ite_of (w.loadStep (w.setCap hhot)) (w.loadStep hhot))
      (State.ite_of (w.loadStep (w.setCap hhot)) hhot))
  · have hclear : R (s.onKiln k fun y => { y with thermal := .clear, heatSeen := false }) := w.onKiln (fun _ => rfl) h
    exact State.ite_of (w.loadRecovery hclear) hclear

/-- What an owner does with a comparator's change is its own. -/
theorem tellOwner {t : Told} : R (s.tellOwner t) := by
  unfold State.tellOwner
  split
  · split
    · exact State.ite_of (w.co2Refresh h) h
    · exact State.ite_of (w.raiseDemand h) h
    · exact State.ite_of (State.ite_of (w.onKiln (fun _ => rfl) h) (w.retakeThermal h)) h
  · exact h
  · exact h
  · exact h

theorem tellAll {ts : List Told} : R (s.tellAll ts) := by
  unfold State.tellAll
  induction ts generalizing s with
  | nil => exact h
  | cons t ts ih => exact ih (w.tellOwner h)

end State.SelfKept

/-! ## What the sequencers' own work leaves -/

/-- The part but for the sequencers' records, the command filter, the trunk and the notices. -/
def State.SameSurroundings (s t : State) : Prop :=
  t = { s with steeps := t.steeps, comps := t.comps, turners := t.turners, kilns := t.kilns, filter := t.filter
               trunk := t.trunk, notices := t.notices, work := t.work, draws := t.draws }

namespace State.SameSurroundings

variable {a s t : State}

theorem refl (s : State) : s.SameSurroundings s := Eq.refl s

theorem trans {u : State} (h : s.SameSurroundings t) (h' : t.SameSurroundings u) : s.SameSurroundings u := by
  unfold State.SameSurroundings at *
  rw [h', h]

theorem eq (h : s.SameSurroundings t) : t = { s with
    steeps := t.steeps, comps := t.comps, turners := t.turners, kilns := t.kilns, filter := t.filter
    trunk := t.trunk, notices := t.notices, work := t.work, draws := t.draws } := h
theorem clock (h : s.SameSurroundings t) : t.clock = s.clock := (congrArg State.clock h.eq :)
theorem field (h : s.SameSurroundings t) : t.field = s.field := (congrArg State.field h.eq :)
theorem intake (h : s.SameSurroundings t) : t.intake = s.intake := (congrArg State.intake h.eq :)
theorem tables (h : s.SameSurroundings t) : t.tables = s.tables := (congrArg State.tables h.eq :)
theorem vessels (h : s.SameSurroundings t) : t.vessels = s.vessels := (congrArg State.vessels h.eq :)
theorem batch (h : s.SameSurroundings t) : t.batch = s.batch := (congrArg State.batch h.eq :)
theorem transfer (h : s.SameSurroundings t) : t.transfer = s.transfer := (congrArg State.transfer h.eq :)
theorem excise (h : s.SameSurroundings t) : t.excise = s.excise := (congrArg State.excise h.eq :)
theorem mgmt (h : s.SameSurroundings t) : t.mgmt = s.mgmt := (congrArg State.mgmt h.eq :)

theorem of_offers (h : a.SameSurroundings s) (hs : s.SameButOffers t) : a.SameSurroundings t :=
  h.trans (by unfold State.SameSurroundings; rw [hs.eq])

theorem onSteep (h : a.SameSurroundings s) {i : Fin 4} {f : Steep → Steep} : a.SameSurroundings (s.onSteep i f) :=
  h.trans (Eq.refl _)
theorem onComp (h : a.SameSurroundings s) {i : Fin 6} {f : Comp → Comp} : a.SameSurroundings (s.onComp i f) :=
  h.trans (Eq.refl _)
theorem onTurner (h : a.SameSurroundings s) {i : Fin 2} {f : Turner → Turner} : a.SameSurroundings (s.onTurner i f) :=
  h.trans (Eq.refl _)
theorem onKiln (h : a.SameSurroundings s) {i : Fin 2} {f : Kiln → Kiln} : a.SameSurroundings (s.onKiln i f) :=
  h.trans (Eq.refl _)
theorem post (h : a.SameSurroundings s) {k : NoticeKind} {c : SourceClass} {i n : Nat} {v : Int} :
    a.SameSurroundings (s.post k c i n v) := h.of_offers (State.SameButOffers.refl s).post
theorem sendTo (h : a.SameSurroundings s) {o : Origin} {p : Purpose} {st : Option Nat} {code : Nat} :
    a.SameSurroundings (s.sendTo o p st code) := h.of_offers (State.SameButOffers.refl s).sendTo
theorem sendArgTo (h : a.SameSurroundings s) {o : Origin} {p : Purpose} {st : Option Nat} {code : Nat} {x : Int} :
    a.SameSurroundings (s.sendArgTo o p st code x) := h.of_offers (State.SameButOffers.refl s).sendArgTo
theorem ite {c : Prop} [Decidable c] (h : a.SameSurroundings s) (h' : a.SameSurroundings t) :
    a.SameSurroundings (if c then s else t) := State.ite_of h h'

theorem selfKept (a : State) : State.SelfKept a.SameSurroundings where
  offers h hs := h.of_offers hs
  onSteep h := h.onSteep
  onTurner h := h.onTurner
  onKiln _ h := h.onKiln
  onDemand h := h.onComp

theorem fanStop (h : a.SameSurroundings s) {i : Fin 4} : a.SameSurroundings (s.fanStop i) := (selfKept a).fanStop h
theorem fanRun (h : a.SameSurroundings s) {i : Fin 4} : a.SameSurroundings (s.fanRun i) := (selfKept a).fanRun h
theorem raiseDemand (h : a.SameSurroundings s) {c : Fin 6} {k : DemandKind} : a.SameSurroundings (s.raiseDemand c k) :=
  (selfKept a).raiseDemand h
theorem setCap (h : a.SameSurroundings s) {k : Fin 2} {c : Nat} : a.SameSurroundings (s.setCap k c) := (selfKept a).setCap h
theorem tellOwner (h : a.SameSurroundings s) {t : Told} : a.SameSurroundings (s.tellOwner t) := (selfKept a).tellOwner h

end State.SameSurroundings

/-! ## Table 2-6 -/

theorem above_iff {v : Int} {x : Option Int} : above v x = true ↔ ∃ y, x = some y ∧ y < v := by
  cases x <;> simp [above]

theorem below_iff {v : Int} {x : Option Int} : below v x = true ↔ ∃ y, x = some y ∧ v < y := by
  cases x <;> simp [below]

theorem above_eq_false {v : Int} {x : Option Int} : ¬ above v x = true ↔ ∀ y, x = some y → v ≤ y := by
  cases x <;> simp [above]

theorem below_eq_false {v : Int} {x : Option Int} : ¬ below v x = true ↔ ∀ y, x = some y → y ≤ v := by
  cases x <;> simp [below]

theorem above_sub_iff {v c : Int} {x : Option Int} : above v (x.map (· - c)) = true ↔ ∃ y, x = some y ∧ y - c < v := by
  cases x <;> simp [above]

theorem below_add_iff {v c : Int} {x : Option Int} : below v (x.map (· + c)) = true ↔ ∃ y, x = some y ∧ v < y + c := by
  cases x <;> simp [below]

theorem above_sub_eq_false {v c : Int} {x : Option Int} :
    ¬ above v (x.map (· - c)) = true ↔ ∀ y, x = some y → v ≤ y - c := by
  cases x <;> simp [above]

theorem below_add_eq_false {v c : Int} {x : Option Int} :
    ¬ below v (x.map (· + c)) = true ↔ ∀ y, x = some y → y + c ≤ v := by
  cases x <;> simp [below]

/-- The rows of a comparator's state: the first that is reached, and NORMAL where none is. -/
theorem Limits.next_normal (l : Limits) (v : Int) :
    (l.next .normal v = .high ↔ above v l.hi = true) ∧
      (l.next .normal v = .low ↔ below v l.lo = true ∧ ¬ above v l.hi = true) := by
  unfold Limits.next
  dsimp only
  split_ifs <;> simp [*]

theorem Limits.next_high (l : Limits) (v : Int) :
    (l.next .high v = .high ↔ above v (l.hi.map (· - l.hyst)) = true) ∧
      (l.next .high v = .low ↔ below v l.lo = true ∧ ¬ above v (l.hi.map (· - l.hyst)) = true) := by
  unfold Limits.next
  dsimp only
  split_ifs <;> simp [*]

theorem Limits.next_low (l : Limits) (v : Int) :
    (l.next .low v = .low ↔ below v (l.lo.map (· + l.hyst)) = true) ∧
      (l.next .low v = .high ↔ above v l.hi = true ∧ ¬ below v (l.lo.map (· + l.hyst)) = true) := by
  unfold Limits.next
  dsimp only
  split_ifs <;> simp [*]

/-! ## A change of a comparator -/

theorem State.onLive_onLive (s : State) (n : Nat) (f g : MpLive → MpLive) :
    (s.onLive n f).onLive n g = s.onLive n fun m => g (f m) := by
  simp [State.onLive, State.onIntake, Tbl.put_put]

theorem State.live_of_intake {s t : State} (h : t.intake = s.intake) (n : Nat) : t.live n = s.live n := by
  unfold State.live
  rw [h]

/-- A comparator at rest takes the state that Table 2-6 gives. -/
theorem State.compare_steady {s : State} {n : Nat} {l : Level} (h : (s.live n).comp = some (.steady l)) (e : MpEntry) (v : Int) :
    ((s.compare n e v).live n).comp = some (.steady ((e.limits (s.live n).stageHigh).next l v)) := by
  unfold State.compare
  rw [h]
  dsimp only
  split
  · next hl => rw [h, hl]
  · generalize hx : s.onLive n _ = x
    have hs : x.SameSurroundings ((x.postLimit n ((e.limits (s.live n).stageHigh).next l v) v).tellOwner
      { owner := e.owner, role := e.role, change := changeTo l ((e.limits (s.live n).stageHigh).next l v) }) :=
      (State.SameSurroundings.refl x).post.tellOwner
    rw [State.live_of_intake hs.intake, ← hx, State.live_onLive_same]

/-- The last sample of SETTLING is evaluated from the remembered state. -/
theorem State.compare_settled {s : State} {n : Nat} {r : Level} {left : Nat} {e : MpEntry}
    (h : (s.live n).comp = some (.settling r left)) (hl : left ≤ 1) (ho : e.owner = .none) (v : Int) :
    s.compare n e v =
      if (e.limits (s.live n).stageHigh).next r v = r then
        s.onLive n fun x => { x with comp := some (.steady ((e.limits (s.live n).stageHigh).next r v)) }
      else (s.onLive n fun x => { x with comp := some (.steady ((e.limits (s.live n).stageHigh).next r v)) }).post .limit .mp n
        ((e.limits (s.live n).stageHigh).next r v).code v := by
  unfold State.compare
  rw [h]
  dsimp only
  rw [if_neg (by omega), State.tellOwner_none (by simp [State.endSettling, ho])]
  rfl

/-! ## A stage high limit (R34, R36, R37) -/

/-- A comparator whose limits are as before is left alone. -/
theorem State.relimit_same (s : State) (n : Nat) (e : MpEntry) (l : Limits) : s.relimit n e l l = (s, []) := by
  unfold State.relimit
  by_cases h : l.any = true <;> simp [h]

theorem State.setStageHigh_eq {s : State} {n : Nat} {e : MpEntry} (he : s.tables.mp.get n = some e) (h : Option Int) :
    s.setStageHigh n h =
      ((s.onLive n fun x => { x with stageHigh := h }).relimit n e (e.limits (s.live n).stageHigh) (e.limits h)).1.tellAll
        ((s.onLive n fun x => { x with stageHigh := h }).relimit n e (e.limits (s.live n).stageHigh) (e.limits h)).2 := by
  unfold State.setStageHigh
  rw [he]

/-- A change of the limits puts the comparator into SETTLING. -/
theorem State.relimit_change {s : State} {n : Nat} {e : MpEntry} {old new : Limits} (hs : 0 < e.settle) (hn : new.any = true)
    (hne : old ≠ new) :
    s.relimit n e old new = (s.onLive n fun x => { x with
      comp := some (.settling (((s.live n).comp.map Comparator.standing).getD .normal) e.settle) },
        [{ owner := e.owner, role := e.role, change := .settling }]) := by
  unfold State.relimit State.limitChange
  rw [if_pos hn, if_neg (fun h => hne h.2)]
  dsimp only
  rw [if_neg (by omega)]

theorem State.relimit_cease {s : State} {n : Nat} {e : MpEntry} {old new : Limits} (hn : new.any = false) (ho : old.any = true) :
    s.relimit n e old new = s.ceaseComparator n e := by
  unfold State.relimit
  rw [if_neg (by simp [hn]), if_pos ho]

theorem State.postClosed_eq (s : State) (n : Nat) (l : MpLive) :
    s.postClosed n l = if (l.comp.map Comparator.standing).getD .normal = .normal then s
      else s.post .limit .mp n 0 ((l.last.map (·.val)).getD 0) := by
  unfold State.postClosed
  cases h : l.comp.map Comparator.standing with
  | none => rfl
  | some r => cases r <;> rfl

/-- Settles O13, row by row of Table 2-6, and by the cases of R34 and R37. -/
theorem comparatorMovesByTable : Obligations.ComparatorMovesByTable := by
  refine ⟨⟨fun s n e l v h => State.compare_steady h e v, fun l v => ?_⟩, fun s n e r left v h => ⟨fun hl => ?_, fun hl ho => ?_⟩,
    fun s n e h he => ?_, fun s before n e he => ⟨fun hb => ?_, fun hb hc => ?_⟩⟩
  · exact ⟨(l.next_normal v).1.trans above_iff, (l.next_normal v).2.trans (and_congr below_iff above_eq_false),
      (l.next_high v).1.trans above_sub_iff, (l.next_high v).2.trans (and_congr below_iff above_sub_eq_false),
      (l.next_low v).1.trans below_add_iff, (l.next_low v).2.trans (and_congr above_iff below_add_eq_false)⟩
  · unfold State.compare
    rw [h]
    exact if_pos hl
  · exact State.compare_settled h hl ho v
  · intro old new m set r
    have hr : ((m.comp.map Comparator.standing).getD .normal) = r := by
      unfold r
      cases m.comp with
      | none => rfl
      | some c => cases c <;> rfl
    have hm : ((s.onLive n fun x => { x with stageHigh := h }).live n).comp = m.comp := by rw [State.live_onLive_same]
    refine ⟨fun h => ?_, fun hs hn hne => ?_, fun hn ho hc => ?_⟩
    · rw [State.setStageHigh_eq he, show e.limits (s.live n).stageHigh = _ from h, State.relimit_same]
      rfl
    · intro t
      have ht := State.relimit_change (s := s.onLive n fun x => { x with stageHigh := h }) (n := n) hs hn hne
      rw [hm, hr, State.onLive_onLive] at ht
      have hst := State.setStageHigh_eq he h
      rw [ht, State.tellAll_cons, State.tellAll_nil] at hst
      refine ⟨fun ⟨c, hc⟩ => hst.trans (State.tellOwner_comp hc (by simp)), fun k hk hrole => hst.trans ?_⟩
      exact State.tellOwner_kiln_settling hk (by rw [hrole]; rfl) rfl
    · intro t
      obtain ⟨c, hc⟩ := hc
      have hst := State.setStageHigh_eq he h
      rw [State.relimit_cease hn ho] at hst
      unfold State.ceaseComparator at hst
      rw [State.tellAll_cons, State.tellAll_nil, State.tellOwner_comp hc (by simp), State.onLive_onLive, State.postClosed_eq, hm,
        hr, State.live_onLive_same] at hst
      refine ⟨fun hn => hst.trans (if_pos ?_), fun hn => hst.trans (if_neg hn)⟩
      rcases hn with hn | hn
      · exact hn
      · rw [← hr, hn]
        rfl
  · have hk : e.keeps e = true := by simp [MpEntry.keeps]
    unfold State.commitMpEntry
    rw [hb, he]
    dsimp only
    rw [if_pos hk]
    unfold State.keepMp
    rw [if_neg (by simp)]
    exact State.relimit_same ..
  · have hr : (s.commitMpEntry before n).1 = s.onIntake fun i => { i with live := i.live.set n (some (MpLive.created e)) } := by
      unfold State.commitMpEntry
      rw [hb, he]
      dsimp only
      unfold State.recreateMp
      rw [State.postClosed_eq, if_pos (by rw [hc]; rfl)]
      rfl
    rw [hr]
    show ((Tbl.put s.intake.live n (MpLive.created e)).get n).getD {} = _
    rw [Tbl.get_put_same]
    simp [MpLive.created, Limits.any, MpEntry.limits]

end Sys2Proof.Machine
end

section
/-! PROOFS. The command filter: the kiln guard, the interlock walk, the plant's commands and the waiting list (R153 to R160). -/

namespace Sys2Proof.Machine

-- One declaration after the other: side by side, their stacks are more than the check's bound on memory.
set_option Elab.async false

/-! ## The kiln guard (R154, R160) -/

theorem narrow_of_within {lo hi x : Int} (h : lo ≤ x) (h' : x ≤ hi) : narrow lo hi x = x := by
  unfold narrow
  rw [if_neg (by omega), if_neg (by omega)]

/-- A narrowing to 0..c leaves a value within 0..hi there. -/
theorem narrow_keeps_within {hi x : Int} (c : Nat) (h : 0 ≤ x ∧ x ≤ hi) : 0 ≤ narrow 0 c x ∧ narrow 0 c x ≤ hi := by
  unfold narrow
  split_ifs <;> omega

theorem narrow_within (c : Nat) (x : Int) : 0 ≤ narrow 0 c x ∧ narrow 0 c x ≤ c := by
  unfold narrow
  split_ifs <;> omega

/-- The narrowing of one kiln. -/
def State.capGuard (s : State) (k : Fin 2) (station code : Nat) (arg : Int) : Int :=
  match s.kilnCfg k with
  | some c => if c.burner = station ∧ dutyCode code then narrow 0 (s.kiln k).cap arg else arg
  | none => arg

theorem State.burnerGuard_eq (s : State) (st code : Nat) (a : Int) :
    s.burnerGuard st code a = s.capGuard 1 st code (s.capGuard 0 st code a) := rfl

theorem State.capGuard_keeps_within (s : State) (k : Fin 2) (st code : Nat) {a hi : Int} (h : 0 ≤ a ∧ a ≤ hi) :
    0 ≤ s.capGuard k st code a ∧ s.capGuard k st code a ≤ hi := by
  unfold State.capGuard
  split
  · split
    · exact narrow_keeps_within _ h
    · exact h
  · exact h

/-- A kiln's own guard brings a duty for its burner within its cap. -/
theorem State.capGuard_own {s : State} {k : Fin 2} {g : KilnCfg} (hg : s.kilnCfg k = some g) {code : Nat}
    (hd : dutyCode code = true) (a : Int) : s.capGuard k g.burner code a = narrow 0 (s.kiln k).cap a := by
  unfold State.capGuard
  rw [hg]
  exact if_pos ⟨rfl, hd⟩

theorem State.capGuard_ne {s : State} {k : Fin 2} {st : Nat} (h : (s.kilnCfg k).map (·.burner) ≠ some st) (code : Nat) (a : Int) :
    s.capGuard k st code a = a := by
  unfold State.capGuard
  split
  · next c hc =>
    rw [hc] at h
    exact if_neg fun hn => h (congrArg some hn.1)
  · rfl

/-- The guard leaves a duty that lies within the cap of the kiln whose burner it is for. -/
theorem State.burnerGuard_own {s : State} {k : Fin 2} {g : KilnCfg} (hg : s.kilnCfg k = some g)
    (ho : (s.kilnCfg (other k)).map (·.burner) ≠ some g.burner) {code : Nat} (hd : dutyCode code = true) {c : Nat}
    (hc : c ≤ (s.kiln k).cap) : s.burnerGuard g.burner code c = c := by
  have hn : narrow 0 (s.kiln k).cap (c : Int) = c := narrow_of_within (by omega) (by omega)
  rw [State.burnerGuard_eq]
  obtain rfl | rfl : k = 0 ∨ k = 1 := eq_or_eq_other k 0
  · rw [State.capGuard_ne (k := 1) ho, State.capGuard_own hg hd, hn]
  · rw [State.capGuard_ne (k := 0) ho, State.capGuard_own hg hd, hn]

/-- A duty that leaves the guard for a kiln's burner lies within 0..c. -/
theorem State.burnerGuard_within {s : State} {k : Fin 2} {g : KilnCfg} (hg : s.kilnCfg k = some g) {code : Nat}
    (hd : dutyCode code = true) (a : Int) :
    0 ≤ s.burnerGuard g.burner code a ∧ s.burnerGuard g.burner code a ≤ (s.kiln k).cap := by
  rw [State.burnerGuard_eq]
  obtain rfl | rfl : k = 0 ∨ k = 1 := eq_or_eq_other k 0
  · rw [State.capGuard_own (k := 0) hg hd]
    exact s.capGuard_keeps_within 1 _ _ (narrow_within _ _)
  · rw [State.capGuard_own (k := 1) hg hd]
    exact narrow_within _ _

/-- Settles O18: the guard brings the argument within 0..c, and no narrowing of an interlock entry takes it out again. -/
theorem burnerDeliveryStaysWithinTheCap : Obligations.BurnerDeliveryStaysWithinTheCap := by
  intro s e k g hg hst hcode
  have hd : dutyCode e.offer.code = true := by
    rcases hcode with h | h <;> rw [h] <;> rfl
  have hcaps : ∀ (l : List (Fin 2 × Nat)) (a : Int), (0 ≤ a ∧ a ≤ (s.kiln k).cap) →
      0 ≤ l.foldl (fun a c => narrow 0 (s.kiln c.1).cap a) a ∧
        l.foldl (fun a c => narrow 0 (s.kiln c.1).cap a) a ≤ (s.kiln k).cap := fun l => by
    induction l with
    | nil => exact fun _ h => h
    | cons c l ih => exact fun a h => ih _ (narrow_keeps_within _ h)
  unfold State.deliveredArg
  dsimp only
  rw [if_pos hd, hst]
  exact hcaps _ _ (State.burnerGuard_within hg hd _)

/-! ## The interlock walk (R156) -/

/-- An entry that applies to an offer and ends its walk. -/
def State.stopsWalk (s : State) (o : Offer) (e : Interlock) : Prop :=
  s.applies e o = true ∧ (e.action = .refuse ∨ ∃ k, e.action = .clampToCap k ∧ o.code = cRUN ∧ (s.kiln k).gate = false)

/-- What an applying entry that does not end the walk makes of the argument. -/
def State.walkArg (s : State) (o : Offer) (a : Int) (e : Interlock) : Int :=
  match e.action with
  | .clamp lo hi => narrow lo hi a
  | .clampToCap k => if dutyCode o.code then narrow 0 (s.kiln k).cap a else a
  | .refuse => a

/-- The kiln that an entry puts on the record, with its index. -/
def Interlock.recorded (i : Nat) (e : Interlock) : Option (Fin 2 × Nat) :=
  match e.action with
  | .clampToCap k => some (k, i)
  | .clamp _ _ | .refuse => none

theorem State.interlockWalk_stops {s : State} {o : Offer} {e : Interlock} (h : s.stopsWalk o e) (i : Nat) (t : Tbl Interlock)
    (a : Int) (cs : List (Fin 2 × Nat)) : s.interlockWalk o ((i, e) :: t) a cs = .error i := by
  obtain ⟨ha, h⟩ := h
  unfold State.interlockWalk
  rw [if_pos ha]
  rcases h with h | ⟨k, h, hrun, hgate⟩
  · rw [h]
  · rw [h]
    exact if_pos ⟨hrun, by simp [hgate]⟩

theorem State.interlockWalk_passes {s : State} {o : Offer} {e : Interlock} (h : ¬ s.stopsWalk o e) (i : Nat) (t : Tbl Interlock)
    (a : Int) (cs : List (Fin 2 × Nat)) : s.interlockWalk o ((i, e) :: t) a cs =
      if s.applies e o then s.interlockWalk o t (s.walkArg o a e) (cs ++ (e.recorded i).toList)
      else s.interlockWalk o t a cs := by
  rw [State.interlockWalk]
  split
  · next ha =>
    unfold State.walkArg Interlock.recorded
    split
    · next he => exact absurd ⟨ha, .inl he⟩ h
    · next lo hi he => rw [he]; simp
    · next k he =>
      rw [he, if_neg]
      · rfl
      · exact fun hn => h ⟨ha, .inr ⟨k, he, hn.1, by simpa using hn.2⟩⟩
  · rfl

/-- The first entry that ends the walk gives its index. -/
theorem State.interlockWalk_error {s : State} {o : Offer} (x : Tbl Interlock) {i : Nat} {e : Interlock} {y : Tbl Interlock}
    (he : s.stopsWalk o e) (hx : ∀ p ∈ x, ¬ s.stopsWalk o p.2) (a : Int) (cs : List (Fin 2 × Nat)) :
    s.interlockWalk o (x ++ (i, e) :: y) a cs = .error i := by
  induction x generalizing a cs with
  | nil => exact State.interlockWalk_stops he i y a cs
  | cons p x ih =>
    have hx' : ∀ p ∈ x, ¬ s.stopsWalk o p.2 := fun q hq => hx q (List.mem_cons_of_mem _ hq)
    rw [List.cons_append, State.interlockWalk_passes (hx p (List.mem_cons_self ..))]
    split
    · exact ih hx' _ _
    · exact ih hx' _ _

/-- With no entry that ends it, the walk narrows the argument and fills the record entry by entry. -/
theorem State.interlockWalk_ok {s : State} {o : Offer} (t : Tbl Interlock) (ht : ∀ p ∈ t, ¬ s.stopsWalk o p.2) (a : Int)
    (cs : List (Fin 2 × Nat)) :
    s.interlockWalk o t a cs = .ok ((t.filter fun p => s.applies p.2 o).foldl (fun a p => s.walkArg o a p.2) a,
      cs ++ (t.filter fun p => s.applies p.2 o).filterMap fun p => p.2.recorded p.1) := by
  induction t generalizing a cs with
  | nil => simp [State.interlockWalk]
  | cons p t ih =>
    have ht' : ∀ p ∈ t, ¬ s.stopsWalk o p.2 := fun q hq => ht q (List.mem_cons_of_mem _ hq)
    rw [State.interlockWalk_passes (ht p (List.mem_cons_self ..))]
    by_cases ha : s.applies p.2 o = true
    · rw [if_pos ha, ih ht', List.filter_cons_of_pos (by exact ha), List.foldl_cons]
      cases hr : p.2.recorded p.1 <;> simp [hr]
    · rw [if_neg ha, ih ht', List.filter_cons_of_neg (by exact ha)]

theorem dutyCode_iff {code : Nat} : dutyCode code = true ↔ code = cSETPOINT ∨ code = cDUTYCAP := by
  simp [dutyCode]

theorem dutyCode_false {code : Nat} (hs : code ≠ cSETPOINT) (hc : code ≠ cDUTYCAP) : dutyCode code = false :=
  Bool.eq_false_iff.2 fun h => (dutyCode_iff.1 h).elim hs hc

theorem narrow_zero_eq (c : Nat) (a : Int) : narrow 0 c a = min (max a 0) (c : Int) := by
  unfold narrow
  split_ifs <;> omega

/-- The walk reads the conditions of the entries and the kilns alone. -/
theorem State.interlockWalk_congr {s t : State} (o : Offer) (ha : ∀ e, t.applies e o = s.applies e o) (hk : ∀ k, t.kiln k = s.kiln k)
    (x : Tbl Interlock) (a : Int) (cs : List (Fin 2 × Nat)) : t.interlockWalk o x a cs = s.interlockWalk o x a cs := by
  induction x generalizing a cs with
  | nil => rfl
  | cons p x ih =>
    unfold State.interlockWalk
    simp only [ha, hk, ih]

/-! ## COMMAND telegrams (R168, R170) -/

/-- On a trunk that is not lost the plant controller's telegram reloads the silence timer alone. -/
theorem State.heard_plant {s : State} (hl : s.trunk.lost = false) :
    s.heard s.plantAddr = s.onTrunk fun t => { t with silence := some s.silenceTenths } := by
  unfold State.heard
  rw [if_neg (by simp)]
  simp only [hl, Bool.false_eq_true, if_false]
  unfold State.onTrunk
  rw [← hl]

theorem State.heard_other {s : State} {src : Nat} (h : src ≠ s.plantAddr) : s.heard src = s := if_pos h

/-- The plant's COMMAND to a field address is an offer of PLANT origin. -/
theorem State.commandArrives_plant {s : State} {dst : Nat} (hl : s.trunk.lost = false) (hown : s.ownAddr ≠ dst) (h63 : dst ≤ 63)
    (code : Nat) (arg : Int) (tag : Nat) :
    s.commandArrives dst s.plantAddr code arg tag =
      (s.onTrunk fun t => { t with silence := some s.silenceTenths }).offer
        { station := dst, code, arg, origin := .plant, answer := .plant tag } := by
  unfold State.commandArrives
  rw [State.heard_plant hl]
  exact (if_neg fun h => hown h.symm).trans ((if_pos h63).trans (if_pos rfl))

/-- A COMMAND of another source to a field address is refused with ORIGIN. -/
theorem State.commandArrives_other {s : State} {dst src : Nat} (h : src ≠ s.plantAddr) (hown : s.ownAddr ≠ dst) (h63 : dst ≤ 63)
    (code : Nat) (arg : Int) (tag : Nat) : s.commandArrives dst src code arg tag = s.refuse dst code tag .origin 0 := by
  unfold State.commandArrives
  rw [State.heard_other h]
  exact (if_neg fun h => hown h.symm).trans ((if_pos h63).trans (if_neg h))

theorem State.peatShut_of_code {s : State} {code : Nat} (h : code ≠ cRUN) (st : Nat) : s.peatShut st code = false := by
  unfold State.peatShut
  rw [decide_eq_false h, Bool.false_and]

/-- An offer that an interlock entry refuses. -/
theorem State.checkOffer_interlock {s : State} {o : Offer} {i : Nat} (h1 : 1 ≤ o.code) (h2 : o.code ≤ 12) (h0 : o.station ≠ 0)
    (hst : (s.tables.station.get o.station).isSome = true) (hm : s.modeAllows o.station o.origin = true)
    (hp : s.peatShut o.station o.code = false)
    (hw : s.interlockWalk o s.tables.interlock (s.burnerGuard o.station o.code o.arg) [] = .error i) :
    s.checkOffer o = .error (.interlock, i) := by
  unfold State.checkOffer
  rw [if_neg (by omega), if_neg (by simp [Option.isSome_iff_ne_none.1 hst])]
  refine (if_neg fun hn : s.modeAllows o.station o.origin = false => absurd (hm.symm.trans hn) (by decide)).trans ?_
  rw [hp, hw]
  rfl

/-- Settles O19: the walk by induction over the entries, and the refusal by the checks of a COMMAND telegram. -/
theorem interlockWalkActsInOrder : Obligations.InterlockWalkActsInOrder := by
  refine ⟨fun s o t a cs => ⟨?_, ?_⟩, ?_⟩
  · rintro x i e y rfl he hx
    exact State.interlockWalk_error x he hx a cs
  · intro ht
    rw [State.interlockWalk_ok t ht a cs]
    congr 2
    · congr 1
      funext b p
      unfold State.walkArg
      cases p.2.action with
      | refuse => rfl
      | clamp lo hi => rfl
      | clampToCap k => simp only [dutyCode_iff, narrow_zero_eq]
  · intro s dst src code arg tag i hw hl hown h0 h63 hsrc hc1 hc12 hrun hset hcap hst hmode hwalk
    show Host.Outcome.next (s.commandArrives dst.toNat src.toNat code.toNat arg.toInt tag.toNat).settle = _
    rw [hsrc, State.commandArrives_plant hl hown h63]
    unfold State.offer
    rw [State.checkOffer_interlock (i := i) hc1 hc12 (Nat.ne_of_gt h0) hst hmode (State.peatShut_of_code hrun _)]
    · exact congrArg Host.Outcome.next (State.settle_of_idle (by simp [State.refuseOffer, State.answer, hw]))
    · rw [State.burnerGuard_of_code (dutyCode_false hset hcap)]
      have hcongr := State.interlockWalk_congr (s := s) (t := s.onTrunk fun t => { t with silence := some s.silenceTenths })
        { station := dst.toNat, code := code.toNat, arg := arg.toInt, origin := .plant, answer := .plant tag.toNat }
        (fun _ => rfl) (fun _ => rfl) s.tables.interlock arg.toInt []
      exact hcongr.trans hwalk

/-- A command of the plant that passes the checks and finds room goes to the back of the queue. -/
theorem State.offer_plant {s : State} {o : Offer} (h : s.roomFor o.station o.code .plant = true) (hn : s.filter.plantCount < 12)
    (ho : o.origin = .plant) (hrun : o.code ≠ cRUN) (hset : o.code ≠ cSETPOINT) (hcap : o.code ≠ cDUTYCAP) :
    s.offer o = s.onFilter fun f => { f with
      queue := f.queue ++ [{ offer := o, owner := s.tables.stationOwner o.station, caps := [] }] } := by
  obtain ⟨-, -, -, -, -, -, hkey, hlen, -⟩ := State.roomFor_iff.1 h
  unfold State.offer
  rw [State.checkOffer_room (ho ▸ h) (State.peatShut_of_code hrun _), State.burnerGuard_of_code (dutyCode_false hset hcap)]
  unfold State.place
  obtain ⟨st, code, arg, origin, answer⟩ := o
  obtain rfl : origin = .plant := ho
  simp only [hkey, if_true, hlen, hn, and_self]

/-- Settles O42: the offer of the plant's COMMAND passes every check and is placed at the queue's end. -/
theorem plantCommandIsRelayed : Obligations.PlantCommandIsRelayed := by
  intro s dst src code arg tag hw hl hown h63
  refine ⟨fun hsrc hroom hcount hrun hset hcap => ?_, fun hsrc => ?_⟩
  · show Host.Outcome.next (s.commandArrives dst.toNat src.toNat code.toNat arg.toInt tag.toNat).settle = _
    rw [hsrc, State.commandArrives_plant hl hown h63]
    have hroom' : (s.onTrunk fun t => { t with silence := some s.silenceTenths }).roomFor dst.toNat code.toNat .plant = true :=
      hroom
    rw [State.offer_plant (o := { station := dst.toNat, code := code.toNat, arg := arg.toInt, origin := .plant
                                  answer := .plant tag.toNat }) hroom' hcount rfl hrun hset hcap]
    exact congrArg Host.Outcome.next (State.settle_of_idle hw)
  · show Host.Outcome.next (s.commandArrives dst.toNat src.toNat code.toNat arg.toInt tag.toNat).settle = _
    rw [State.commandArrives_other hsrc hown h63]
    exact congrArg Host.Outcome.next (State.settle_of_idle (by simp [hw]))

/-! ## The waiting list (R159) -/

theorem State.onFilter_congr {s : State} {f g : Filter → Filter} (h : f s.filter = g s.filter) : s.onFilter f = s.onFilter g := by
  unfold State.onFilter
  rw [h]

/-- The checks change the argument of an offer alone. -/
theorem State.checkOffer_keeps {s : State} {o : Offer} {q : QEntry} (h : s.checkOffer o = .ok q) :
    q.offer = { o with arg := q.offer.arg } := by
  unfold State.checkOffer at h
  dsimp only at h
  split_ifs at h
  split at h
  · cases h
  · obtain rfl := Except.ok.inj h
    rfl

/-- No place for an offer of the part's own: the queue is full, or an OVERRIDE entry holds its place. -/
def State.blocks (s : State) (o : Offer) : Prop :=
  (s.filter.entry o.station o.code = none ∧ 16 ≤ s.filter.queue.length) ∨
    ∃ x, s.filter.entry o.station o.code = some x ∧ x.offer.origin = .override ∧ o.origin = .sequencer

theorem State.place_blocked {s : State} {q : QEntry} (hb : s.blocks q.offer) (hp : q.offer.origin ≠ .plant) :
    s.place q = (s, false) := by
  unfold State.place
  rcases hb with ⟨hn, hlen⟩ | ⟨x, hx, hov, hseq⟩
  · rw [hn]
    dsimp only
    rw [if_neg hp, if_neg (by omega)]
  · rw [hx]
    dsimp only
    rw [if_pos ⟨hov, by simp [hseq]⟩, if_neg hp]

theorem State.offer_blocked {s : State} {o : Offer} {q : QEntry} (hp : o.origin ≠ .plant) (hq : s.checkOffer o = .ok q)
    (hb : s.blocks o) : s.offer o = s.joinWaiting o := by
  have e := State.checkOffer_keeps hq
  have hb' : s.blocks q.offer := by rw [e]; exact hb
  have hp' : q.offer.origin ≠ .plant := by rw [e]; exact hp
  unfold State.offer
  rw [hq]
  dsimp only
  rw [if_neg hp, State.place_blocked hb' hp']
  rfl

theorem State.joinWaiting_new {s : State} {o : Offer} (h : ∀ w ∈ s.filter.waiting, w.rivals o = false) :
    s.joinWaiting o = s.onFilter fun f => { f with waiting := insertWaiting f.waiting { offer := o, since := s.timeNow } } := by
  unfold State.joinWaiting
  rw [List.find?_eq_none.2 fun w hw => by simp [h w hw]]

/-- The older offer of the same block, station and code is reported withdrawn, and the newer stands in its place. -/
theorem State.joinWaiting_replaces {s : State} {o : Offer} {a : List WEntry} {w : WEntry} {b : List WEntry}
    (hw : s.filter.waiting = a ++ w :: b) (hr : w.rivals o = true) (hn : ∀ x ∈ a ++ b, x.rivals o = false) :
    s.joinWaiting o = (s.onFilter fun f => { f with waiting := a ++ { w with offer := o } :: b }).tell w.offer.answer .withdrawn
      w.offer.code := by
  have ha : ∀ x ∈ a, x.rivals o = false := fun x hx => hn x (List.mem_append_left _ hx)
  have hb : ∀ x ∈ b, x.rivals o = false := fun x hx => hn x (List.mem_append_right _ hx)
  have keep : ∀ l : List WEntry, (∀ x ∈ l, x.rivals o = false) →
      l.map (fun x => if x.rivals o then { x with offer := o } else x) = l := fun l hl =>
    (List.map_congr_left fun x hx => by simp [hl x hx]).trans (List.map_id l)
  have hfind : (a ++ w :: b).find? (·.rivals o) = some w := by
    rw [List.find?_append, List.find?_eq_none.2 (fun x hx => by simp [ha x hx]), Option.none_or, List.find?_cons_of_pos (p := fun x : WEntry => x.rivals o) hr]
  unfold State.joinWaiting
  rw [hw, hfind]
  dsimp only
  rw [State.onFilter_congr (s := s) (g := fun f => { f with waiting := a ++ { w with offer := o } :: b })]
  rw [hw, List.map_append, List.map_cons, keep a ha, keep b hb, if_pos hr]

/-- A waiting offer that finds room goes to the back of the queue. -/
theorem State.reofferOne_room {s : State} {w : WEntry} (h : s.roomFor w.offer.station w.offer.code w.offer.origin = true)
    (hp : w.offer.origin ≠ .plant) (hrun : w.offer.code ≠ cRUN) (hset : w.offer.code ≠ cSETPOINT) (hcap : w.offer.code ≠ cDUTYCAP) :
    s.reofferOne w = s.onFilter fun f => { f with
      queue := f.queue ++ [{ offer := w.offer, owner := s.tables.stationOwner w.offer.station, caps := [] }] } := by
  obtain ⟨-, -, -, -, -, -, hkey, hlen, -⟩ := State.roomFor_iff.1 h
  unfold State.reofferOne
  rw [State.checkOffer_room h (State.peatShut_of_code hrun _), State.burnerGuard_of_code (dutyCode_false hset hcap)]
  unfold State.place
  simp only [hkey, if_neg hp, if_pos hlen, if_true]

/-- A waiting offer without a place stays on the list. -/
theorem State.reofferOne_blocked {s : State} {w : WEntry} {q : QEntry} (hp : w.offer.origin ≠ .plant)
    (hq : s.checkOffer w.offer = .ok q) (hb : s.blocks w.offer) :
    s.reofferOne w = s.onFilter fun f => { f with waiting := f.waiting ++ [w] } := by
  have e := State.checkOffer_keeps hq
  have hb' : s.blocks q.offer := by rw [e]; exact hb
  have hp' : q.offer.origin ≠ .plant := by rw [e]; exact hp
  unfold State.reofferOne
  rw [hq]
  dsimp only
  rw [State.place_blocked hb' hp']
  rfl

/-- The entry that an ACCEPTED CONFIRM takes out of the queue makes the one waiting offer be offered again. -/
theorem State.deliveryAccepted_plant {s : State} {e : QEntry} {x : Flight} {p : Nat} {w : WEntry} (hx : x.answer = .plant p)
    (hc : e.offer.code ≠ cSPRINKLE) (hw : s.filter.waiting = [w]) :
    s.deliveryAccepted e x =
      ((s.dropEntry e.offer.station e.offer.code).onFilter fun f => { f with waiting := [] }).reofferOne w := by
  have hcredit : s.creditDelivered e x = s := by
    unfold State.creditDelivered
    split
    · split
      · exact if_neg hc
      · rfl
    · rfl
  unfold State.deliveryAccepted
  rw [hcredit, hx]
  dsimp only [State.tell]
  unfold State.reoffer
  rw [State.dropEntry, State.onFilter_filter]
  dsimp only
  rw [hw]
  rfl

/-- Settles O17: an offer without a place joins the list or replaces its rival there, and the entry that a CONFIRM takes
out of the queue makes the waiting offer pass the checks again. -/
theorem waitingOffersAreOfferedAgain : Obligations.WaitingOffersAreOfferedAgain := by
  refine ⟨fun s o q hp hq => ?_, ?_⟩
  · have e := State.checkOffer_keeps hq
    refine ⟨by rw [e], by rw [e], by rw [e], fun hb hn => ?_, fun hb a w b p n hw hr hn ha => ?_⟩
    · rw [State.offer_blocked hp hq hb, State.joinWaiting_new hn]
    · have hcode : w.offer.code = o.code := by
        simp only [WEntry.rivals, Bool.and_eq_true, decide_eq_true_eq] at hr
        exact hr.1.2
      rw [State.offer_blocked hp hq hb, State.joinWaiting_replaces hw hr hn, ha, hcode]
      rfl
  · intro s src tag e x p w hwork hph hm hrep hx hc hw hp u
    have key : exec (.confirmTelegram src tag true) s = .next (u.reofferOne w).settle := by
      show Host.Outcome.next (s.confirmArrives src.toNat tag.toNat true).settle = _
      have ht : s.takeConfirm src.toNat tag.toNat true = u.reofferOne w := by
        unfold State.takeConfirm
        rw [hm]
        dsimp only
        rw [hrep, State.deliveryAccepted_plant hx hc hw]
        rfl
      unfold State.confirmArrives
      rw [ht]
      split
      · next st t rest hwin => rw [if_neg fun h : st = src.toNat => hph t rest (h ▸ hwin)]
      · rfl
      · rfl
    refine ⟨fun hroom hrun hset hcap => ?_, fun q y hq hy hov hseq => ?_⟩
    · rw [key, State.reofferOne_room hroom hp hrun hset hcap]
      exact congrArg Host.Outcome.next (State.settle_of_idle hwork)
    · rw [key, State.reofferOne_blocked hp hq (.inr ⟨y, hy, hov, hseq⟩)]
      exact congrArg Host.Outcome.next (State.settle_of_idle hwork)

end Sys2Proof.Machine
end

section
/-! PROOFS. Kilns: BLIND, the break ring, the durations of a stage, the step timer and peat (R40, R95, R96, R99, R100, R106,
R108, R110, R112). -/

namespace Sys2Proof.Machine

-- One declaration after the other: side by side, their stacks are more than the check's bound on memory.
set_option Elab.async false

theorem State.onKiln_onKiln (s : State) (k : Fin 2) (f g : Kiln → Kiln) :
    (s.onKiln k f).onKiln k g = s.onKiln k fun x => g (f x) := by
  simp [State.onKiln, onBank]

theorem State.onKiln_congr {s : State} {k : Fin 2} {f g : Kiln → Kiln} (h : f (s.kiln k) = g (s.kiln k)) :
    s.onKiln k f = s.onKiln k g := by
  have h' : f s.kilns[k] = g s.kilns[k] := h
  simp only [State.onKiln, onBank, h']

/-! ## BLIND (R40, R110) -/

theorem State.kilnBlinded_kiln (s : State) (k j : Fin 2) :
    (s.kilnBlinded k).kiln j = (s.setCap k (min (s.kiln k).cap (s.blindCap k))).kiln j ∨
      j = k ∧ (s.kilnBlinded k).kiln j = { (s.setCap k (min (s.kiln k).cap (s.blindCap k))).kiln j with step := none } := by
  unfold State.kilnBlinded
  dsimp only
  split
  · split
    · rw [State.kiln_onKiln]
      split
      · next h => exact .inr ⟨h, rfl⟩
      · exact .inl rfl
    · exact .inl rfl
  · exact .inl rfl

/-- Settles O20: only a kiln's sequencer is told of BLIND, and it moves the cap alone. -/
theorem watchExpiryBlindsTheVessel : Obligations.WatchExpiryBlindsTheVessel := by
  refine ⟨fun s v n hw hv hwatch hn => ?_, fun s k => ?_⟩
  · have h : s.watchExpires v =
        (s.onVessel v fun r => { r with watch := none, blind := true }).post .blind .vessel v.val 0 n := by
      unfold State.watchExpires
      rw [if_pos hwatch, State.tellBlind_of_lt hv, hn]
      rfl
    show Host.Outcome.next (s.watchExpires v).settle = _
    rw [h, State.settle_of_idle (by simp [hw])]
  · have hsame := State.setCap_kiln_same s k (min (s.kiln k).cap (s.blindCap k))
    refine ⟨?_, ?_, ?_, ?_⟩
    · obtain h | ⟨-, h⟩ := State.kilnBlinded_kiln s k k <;> rw [h, hsame]
    · obtain h | ⟨-, h⟩ := State.kilnBlinded_kiln s k k <;> rw [h, hsame]
    · obtain h | ⟨-, h⟩ := State.kilnBlinded_kiln s k k <;> rw [h, hsame]
    · obtain h | ⟨h, -⟩ := State.kilnBlinded_kiln s k (other k)
      · rw [h, State.setCap_kiln_ne _ (other_ne k)]
      · exact absurd h (other_ne k)

/-! ## The break ring (R99, R100) -/

theorem ringAdd_eq {r : List Int} (h : r.length ≤ 6) (v : Int) :
    ringAdd r v = (if r.length = 6 then r.drop 1 else r) ++ [v] := by
  unfold ringAdd
  by_cases h6 : r.length = 6
  · rw [if_pos (by omega), if_pos h6]
  · rw [if_neg (by omega), if_neg h6]

theorem ringAdd_length {r : List Int} (h : r.length ≤ 6) (v : Int) : (ringAdd r v).length = min 6 (r.length + 1) := by
  rw [ringAdd_eq h]
  split <;> simp <;> omega

/-- A ring of six points has the rise from its first to the newest. -/
theorem ringRise_full {r : List Int} (h : r.length = 5 ∨ r.length = 6) {a v : Int} (ha : (ringAdd r v)[0]? = some a) :
    ringRise (ringAdd r v) = some (v - a) := by
  have hl : (ringAdd r v).length = 6 := by rw [ringAdd_length (by omega)]; omega
  have hlast : (ringAdd r v).getLast? = some v := by
    unfold ringAdd
    exact List.getLast?_concat
  unfold ringRise
  rw [if_pos hl, List.head?_eq_getElem?, ha, hlast]

theorem ringRise_short {r : List Int} (h : r.length < 5) (v : Int) : ringRise (ringAdd r v) = none := by
  have hl : (ringAdd r v).length ≠ 6 := by rw [ringAdd_length (by omega)]; omega
  unfold ringRise
  rw [if_neg hl]

theorem State.endTestOf_other {s : State} {k : Fin 2} {f : KilnStage} {e : EndKind} (h : (s.kiln k).fields = some f)
    (he : f.endKind ≠ e) : s.endTestOf k e = s := by
  unfold State.endTestOf
  rw [h]
  exact if_neg (by simpa using he)

/-- A minute that does not count sets the run of minutes to 0. -/
theorem State.evalRing_not {s : State} {k : Fin 2} {f : KilnStage} {rise : Int} {w : Nat}
    (hr : ringRise (s.kiln k).ring = some rise) (hm : s.moistureAt (kilnNo k) = some w)
    (h : rise < f.breakRise ∨ f.breakCeiling < w) : s.evalRing k f = s.onKiln k fun x => { x with streak := 0 } := by
  have hc : (decide ((f.breakRise : Int) ≤ rise) && (s.moistureAt (kilnNo k)).any fun m => decide (m ≤ f.breakCeiling)) = false := by
    rw [hm]
    simp only [Option.any_some, Bool.and_eq_false_iff, decide_eq_false_iff_not]
    omega
  unfold State.evalRing
  rw [hr]
  simp only [hc, Bool.false_eq_true, if_false]
  rw [if_neg (by simp)]

/-- A minute that counts; the third declares the break. -/
theorem State.evalRing_counts {s : State} {k : Fin 2} {f : KilnStage} {rise : Int} {w : Nat}
    (hr : ringRise (s.kiln k).ring = some rise) (hm : s.moistureAt (kilnNo k) = some w) (h : f.breakRise ≤ rise)
    (h' : w ≤ f.breakCeiling) (hf : (s.kiln k).fields = some f) (hk : f.endKind ≠ .brk) :
    s.evalRing k f =
      if 3 ≤ (s.kiln k).streak + 1 ∧ (s.kiln k).declared = false then
        (s.onKiln k fun x => { x with streak := x.streak + 1, declared := true }).post .phase .vessel (kilnNo k).val 7 rise
      else s.onKiln k fun x => { x with streak := x.streak + 1 } := by
  have hc : (decide ((f.breakRise : Int) ≤ rise) && (s.moistureAt (kilnNo k)).any fun m => decide (m ≤ f.breakCeiling)) = true := by
    rw [hm]
    simp [h, h']
  unfold State.evalRing
  rw [hr]
  simp only [hc, if_true, State.kiln_onKiln_same, State.onKiln_onKiln]
  split
  · refine State.endTestOf_other (f := f) ?_ hk
    rw [State.postVessel, State.post_kiln, State.kiln_onKiln_same, hf]
  · rfl

/-- Settles O26: the ring is evaluated where it is full. -/
theorem breakPointsBuildTheRing : Obligations.BreakPointsBuildTheRing := by
  intro s k f hw hdue hf hkind x m
  have hx : exec (.breakPoint k) s = .next (s.takeBreakPoint k).settle := rfl
  refine ⟨fun hu => ?_, fun v hu => ?_⟩
  · have h : s.takeBreakPoint k = m.onKiln k fun y => { y with streak := 0 } := by
      unfold State.takeBreakPoint
      rw [if_pos hdue, hu]
    rw [hx, h]
    exact congrArg Host.Outcome.next (State.settle_of_idle hw)
  · intro ring r
    have hbreak : x.ring.length ≤ 6 → s.takeBreakPoint k = r.evalRing k f := fun hl => by
      unfold State.takeBreakPoint
      rw [if_pos hdue, hu, hf]
      refine congrArg (State.evalRing · k f) (State.onKiln_congr ?_)
      rw [State.kiln_onKiln_same]
      exact congrArg (fun l : List Int => { s.kiln k with minutes := (s.kiln k).minutes + 1, ring := l }) (ringAdd_eq hl v)
    have hr : (r.kiln k) = { x with minutes := x.minutes + 1, ring := ring } := by
      rw [State.kiln_onKiln_same, State.kiln_onKiln_same]
    refine ⟨fun hl => ?_, fun a w hl ha hm => ?_⟩
    · have hring : r.evalRing k f = r := by
        unfold State.evalRing
        rw [hr]
        dsimp only
        rw [show ring = ringAdd x.ring v from (ringAdd_eq (by omega) v).symm, ringRise_short hl]
      rw [hx, hbreak (by omega), hring]
      exact congrArg Host.Outcome.next (State.settle_of_idle hw)
    · have hrise : ringRise (r.kiln k).ring = some (v - a) := by
        rw [hr]
        have h := ringAdd_eq (show x.ring.length ≤ 6 by omega) v
        dsimp only
        rw [show ring = ringAdd x.ring v from h.symm]
        exact ringRise_full hl (by rw [h]; exact ha)
      have hmr : r.moistureAt (kilnNo k) = some w := hm
      refine ⟨fun hno => ?_, fun hyes hceil => ⟨fun hd => ?_, fun h3 hd => ?_⟩⟩
      · rw [hx, hbreak (by omega), State.evalRing_not hrise hmr hno]
        exact congrArg Host.Outcome.next (State.settle_of_idle hw)
      · rw [hx, hbreak (by omega), State.evalRing_counts hrise hmr hyes hceil (by rw [hr]; exact hf) hkind, hr, if_neg ?_]
        · exact congrArg Host.Outcome.next (State.settle_of_idle hw)
        · rcases hd with hd | hd
          · exact fun h => absurd h.1 (Nat.not_le.2 hd)
          · exact fun h => absurd (hd.symm.trans h.2) (by decide)
      · rw [hx, hbreak (by omega), State.evalRing_counts hrise hmr hyes hceil (by rw [hr]; exact hf) hkind, hr, if_pos ⟨h3, hd⟩]
        exact congrArg Host.Outcome.next (State.settle_of_idle ((State.post_work ..).trans hw))

/-! ## The durations of a stage (R95, R96) -/

/-- With every minute mark taken, no point is taken at a duration's end. -/
theorem State.takeDuePoints_none {s : State} {k : Fin 2} (h : (s.kiln k).firing / 600 ≤ (s.kiln k).minutes) :
    s.takeDuePoints k = s := by
  unfold State.takeDuePoints
  rw [Nat.sub_eq_zero_of_le h]
  rfl

theorem State.testsEnd_minTaken (s : State) (k : Fin 2) :
    (s.onKiln k fun x => { x with minTaken := true }).testsEnd k = s.testsEnd k := by
  unfold State.testsEnd
  rw [State.kiln_onKiln_same]
  rfl

theorem State.endMet_minTaken (s : State) (k : Fin 2) (f : KilnStage) :
    (s.onKiln k fun x => { x with minTaken := true }).endMet k f = s.endMet k f := by
  unfold State.endMet
  rw [State.kiln_onKiln_same]
  rfl

/-- The end test of a kiln past its minimum duration goes by the condition alone. -/
theorem State.endTest_eq {s : State} {k : Fin 2} {f : KilnStage} (hf : (s.kiln k).fields = some f) (ht : s.testsEnd k = true)
    (hmin : f.minDur * 600 ≤ (s.kiln k).firing) : s.endTest k = if s.endMet k f then s.kilnStageEnds k else s := by
  unfold State.endTest
  rw [hf]
  simp [ht, hmin]

theorem State.discardWaiting_empty {s : State} (h : s.filter.waiting = []) (v : Fin 12) : s.discardWaiting v = s := by
  unfold State.discardWaiting State.onFilter
  simp only [h, List.filter_nil]
  rw [← h]

/-- The first fault of a vessel in AUTO. -/
theorem State.vesselFault_auto {s : State} {v : Fin 12} (hm : (s.vessel v).mode = .auto) (hf : (s.vessel v).fault = none)
    (c : FaultCode) :
    s.vesselFault v c = (((s.onVessel v fun r => { r with mode := .hold, fault := some c }).post .fault .vessel v.val c.code
      (s.phaseIndex v)).post .mode .vessel v.val 3 2).leaveAuto v := by
  have hset : (s.onVessel v fun r => { r with mode := .hold, fault := some (r.fault.getD c) }) =
      s.onVessel v fun r => { r with mode := .hold, fault := some c } := by
    have h' : s.vessels[v].fault = none := hf
    simp only [State.onVessel, onBank, h', Option.getD_none]
  unfold State.vesselFault
  dsimp only
  rw [hm]
  dsimp only
  rw [hset]
  rfl

theorem State.leaveAuto_kiln {s : State} (h : s.filter.waiting = []) (k : Fin 2) : s.leaveAuto (kilnNo k) = s := by
  unfold State.leaveAuto
  rw [vesselIs_kilnNo]
  exact State.discardWaiting_empty h _

theorem State.phaseIndex_kiln (s : State) (k : Fin 2) : s.phaseIndex (kilnNo k) = (s.kiln k).index := by
  unfold State.phaseIndex
  rw [vesselIs_kilnNo]

/-- A last stage that ends by its limit faults the kiln. -/
theorem State.limitEnds_last {s : State} {k : Fin 2} {f : KilnStage} (hf : (s.kiln k).fields = some f)
    (hlast : (s.kilnStages k)[(s.kiln k).index + 1]? = none) (hk : f.endKind ≠ .time) :
    s.limitEnds k = ((s.post .stageLimit .vessel (kilnNo k).val f.endKind.code (s.kiln k).index).onKiln k fun x =>
      { x with limitEnded := true }).vesselFault (kilnNo k) .stageLimit := by
  unfold State.limitEnds
  rw [hf]
  dsimp only
  rw [if_pos ⟨by rw [hlast]; rfl, hk⟩]
  rfl

/-- Settles O27: no minute mark is due, so the end test is all that happens at the minimum, and the end by limit all that
follows at the maximum. -/
theorem firingTimeEndsTheStage : Obligations.FiringTimeEndsTheStage := by
  intro s k f hw hf hmin m
  have hmk : m.kiln k = { s.kiln k with minTaken := true } := State.kiln_onKiln_same ..
  have hmf : (m.kiln k).fields = some f := by rw [hmk]; exact hf
  refine ⟨fun hd => ?_, fun hd hle hend hlast hkind hfault hwait => ?_⟩
  · have ht : s.testsEnd k = true ∧ f.minDur * 600 ≤ (s.kiln k).firing := by
      simp only [State.minimumDue, hf, Option.any_some, Bool.and_eq_true, decide_eq_true_eq] at hd
      exact ⟨hd.1.1, hd.2⟩
    have hx : s.kilnMinimum k = if s.endMet k f then m.kilnStageEnds k else m := by
      unfold State.kilnMinimum State.minimumTest
      rw [if_pos hd, State.takeDuePoints_none hmin, if_pos hd, State.endTest_eq hmf
        ((State.testsEnd_minTaken s k).trans ht.1) (by rw [State.kiln_onKiln_same]; exact ht.2), State.endMet_minTaken]
    refine ⟨fun he => ?_, fun he => ?_⟩
    · show Host.Outcome.next (s.kilnMinimum k).settle = _
      rw [hx, if_neg (by simp [he])]
      exact congrArg Host.Outcome.next (State.settle_of_idle hw)
    · show Host.Outcome.next (s.kilnMinimum k).settle = _
      rw [hx, if_pos he]
  · have ht : s.testsEnd k = true ∧ f.maxDur * 600 ≤ (s.kiln k).firing := by
      simpa [State.maximumDue, hf] using hd
    have hauto : (s.vessel (kilnNo k)).mode = .auto := by
      have h := ht.1
      simp only [State.testsEnd, Bool.and_eq_true, decide_eq_true_eq] at h
      exact h.1.2
    have hmd : m.maximumDue k = true := by
      unfold State.maximumDue
      rw [State.testsEnd_minTaken, hmk, ht.1, hf]
      simpa using ht.2
    have hx : s.kilnMaximum k = m.limitEnds k := by
      unfold State.kilnMaximum
      rw [if_pos hd]
      dsimp only
      rw [State.takeDuePoints_none hmin, if_pos hd, State.endTest_eq hmf ((State.testsEnd_minTaken s k).trans ht.1)
        (by rw [State.kiln_onKiln_same]; exact (Nat.mul_le_mul_right 600 hle).trans ht.2), State.endMet_minTaken, hend,
        if_neg Bool.false_ne_true, if_pos hmd]
    have hlast' : (m.kilnStages k)[(m.kiln k).index + 1]? = none := by rw [hmk]; exact hlast
    have hidx : (m.kiln k).index = (s.kiln k).index := by rw [hmk]
    show Host.Outcome.next (s.kilnMaximum k).settle = _
    rw [hx, State.limitEnds_last hmf hlast' hkind, hidx, State.vesselFault_auto, State.leaveAuto_kiln, State.settle_of_idle,
      State.phaseIndex_kiln]
    · have hix : (((m.post .stageLimit .vessel (kilnNo k).val f.endKind.code (s.kiln k).index).onKiln k fun x =>
          { x with limitEnded := true }).kiln k).index = (s.kiln k).index := by simp [State.kiln, m]
      rw [hix]
      rfl
    · simp [hw, m]
    · simp [hwait, m]
    · simpa [State.vessel, m] using hauto
    · simpa [State.vessel, m] using hfault

/-! ## The step timer (R106, R108) -/

theorem State.roomFor_onKiln (s : State) (k : Fin 2) (f : Kiln → Kiln) (st code : Nat) (o : Origin) :
    (s.onKiln k f).roomFor st code o = s.roomFor st code o := rfl

theorem State.queued_onKiln (s : State) (k : Fin 2) (f : Kiln → Kiln) (st code : Nat) (a : Int) (o : Origin) (p : Purpose) :
    (s.queued st code a o p).onKiln k f = (s.onKiln k f).queued st code a o p := rfl

theorem State.queued_kiln (s : State) (st code : Nat) (a : Int) (o : Origin) (p : Purpose) (k : Fin 2) :
    (s.queued st code a o p).kiln k = s.kiln k := rfl

/-- The cap's target reads the grant of the kiln's record alone. -/
theorem State.capTarget_onKiln (s : State) (k : Fin 2) {f : Kiln → Kiln} (h : (f (s.kiln k)).grant = (s.kiln k).grant) :
    (s.onKiln k f).capTarget k = s.capTarget k := by
  show (if s.kilnBlind k then min ((s.onKiln k f).kiln k).grant (s.blindCap k) else ((s.onKiln k f).kiln k).grant) = _
  rw [State.kiln_onKiln_same, h]
  rfl

theorem State.loadStep_eq {s : State} {k : Fin 2} {w : KilnWide} (hw : s.kilnWide k = some w) (hm : s.kilnMode k ≠ .off)
    (hi : (s.kiln k).index ≠ 255) (d : StepDir) :
    s.loadStep k d = s.onKiln k fun y => { y with step := some (d, (match d with
      | .down => w.overrideInt
      | .up => w.recoveryInt) * 10) } := by
  unfold State.loadStep
  rw [hw]
  exact if_pos ⟨hm, hi⟩

theorem State.loadStep_queued (s : State) (k : Fin 2) (d : StepDir) (st code : Nat) (a : Int) (o : Origin) (p : Purpose) :
    (s.queued st code a o p).loadStep k d = (s.loadStep k d).queued st code a o p := by
  unfold State.loadStep
  rw [show (s.queued st code a o p).kilnWide k = s.kilnWide k from rfl]
  split
  · rw [apply_ite (fun t : State => t.queued st code a o p)]
    rfl
  · rfl

theorem State.loadRecovery_queued (s : State) (k : Fin 2) (st code : Nat) (a : Int) (o : Origin) (p : Purpose) :
    (s.queued st code a o p).loadRecovery k = (s.loadRecovery k).queued st code a o p := by
  unfold State.loadRecovery
  rw [apply_ite (fun t : State => t.queued st code a o p), State.loadStep_queued]
  rfl

/-- A cap that changes is told to the burner by DUTY_CAP, which finds room. -/
theorem State.setCap_told {s : State} {k : Fin 2} {g : KilnCfg} (hg : s.kilnCfg k = some g)
    (ho : (s.kilnCfg (other k)).map (·.burner) ≠ some g.burner) (hroom : s.roomFor g.burner cDUTYCAP .override = true) {c : Nat}
    (hc : (s.kiln k).cap ≠ c) :
    s.setCap k c = ((s.onKiln k fun y => { y with cap := c }).restCap k).queued g.burner cDUTYCAP c .override
      (.vessel (kilnNo k)) := by
  obtain ⟨f, hf, hcap⟩ : ∃ f : Kiln → Kiln, (s.onKiln k fun y => { y with cap := c }).restCap k = s.onKiln k f ∧
      (f (s.kiln k)).cap = c := by
    unfold State.restCap
    dsimp only
    split
    · exact ⟨_, State.onKiln_onKiln .., rfl⟩
    · exact ⟨_, rfl, rfl⟩
  unfold State.setCap
  rw [if_neg hc, hg, hf]
  refine State.blockOffer_room (a := some (c : Int)) ((State.roomFor_onKiln ..).trans hroom) (State.peatShut_of_code (by decide) _)
    (by decide) ?_
  refine State.burnerGuard_own (s := s.onKiln k f) (k := k) hg ho (by decide) ?_
  rw [State.kiln_onKiln_same, hcap]

/-- Settles O29: the cap changes by one, DUTY_CAP tells it, and the step timer is loaded as the new cap stands. -/
theorem stepTimerMovesTheCap : Obligations.StepTimerMovesTheCap := by
  intro s k g w hw hg hkw hmode hidx hroom hother stepped
  refine ⟨fun hstep hhot hpos => ?_, fun hstep hclear hlt => ?_⟩
  · have hx : s.stepDown k = stepped ((s.kiln k).cap - 1) (some (.down, w.overrideInt * 10)) := by
      have hrest : (s.onKiln k fun y => { y with cap := (s.kiln k).cap - 1 }).restCap k =
          s.onKiln k fun y => { y with cap := (s.kiln k).cap - 1 } :=
        if_neg fun h => h.2 (by rw [State.kiln_onKiln_same]; exact hhot)
      unfold State.stepDown
      rw [State.setCap_told hg hother hroom (by omega), hrest, State.loadStep_queued, State.loadStep_eq (s := s.onKiln k _) hkw hmode
        (by rw [State.kiln_onKiln_same]; exact hidx), State.onKiln_onKiln]
    show Host.Outcome.next (s.kilnStepExpires k).settle = _
    unfold State.kilnStepExpires
    dsimp only
    rw [hstep, if_pos hhot, hx]
    exact congrArg Host.Outcome.next (State.settle_of_idle hw)
  · have hx : (s.setCap k ((s.kiln k).cap + 1)).loadRecovery k = stepped ((s.kiln k).cap + 1)
        (if (s.kiln k).cap + 1 < s.capTarget k then some (.up, w.recoveryInt * 10) else none) := by
      have htgt : (s.onKiln k fun y => { y with cap := (s.kiln k).cap + 1 }).capTarget k = s.capTarget k :=
        State.capTarget_onKiln s k rfl
      rw [State.setCap_told hg hother hroom (by omega), State.loadRecovery_queued]
      congr 1
      by_cases hbelow : (s.kiln k).cap + 1 < s.capTarget k
      · have hrest : (s.onKiln k fun y => { y with cap := (s.kiln k).cap + 1 }).restCap k =
            s.onKiln k fun y => { y with cap := (s.kiln k).cap + 1 } :=
          if_neg fun h => by rw [State.kiln_onKiln_same, htgt] at h; exact absurd h.1 (Nat.ne_of_lt hbelow)
        unfold State.loadRecovery
        rw [hrest, htgt, State.kiln_onKiln_same, if_pos hbelow, if_pos hbelow, State.loadStep_eq (s := s.onKiln k _) hkw hmode
          (by rw [State.kiln_onKiln_same]; exact hidx), State.onKiln_onKiln]
      · have hrest : (s.onKiln k fun y => { y with cap := (s.kiln k).cap + 1 }).restCap k =
            s.onKiln k fun y => { y with cap := (s.kiln k).cap + 1, step := none } := by
          unfold State.restCap
          dsimp only
          rw [htgt, State.kiln_onKiln_same, if_pos ⟨by dsimp only; omega, by rw [hclear]; decide⟩, State.onKiln_onKiln]
        have htgt' : (s.onKiln k fun y => { y with cap := (s.kiln k).cap + 1, step := none }).capTarget k = s.capTarget k :=
          State.capTarget_onKiln s k rfl
        unfold State.loadRecovery
        rw [hrest, htgt', State.kiln_onKiln_same, if_neg hbelow, if_neg hbelow, State.onKiln_onKiln]
    show Host.Outcome.next (s.kilnStepExpires k).settle = _
    unfold State.kilnStepExpires
    dsimp only
    rw [hstep]
    refine congrArg Host.Outcome.next (Eq.trans ?_ (State.settle_of_idle (s := stepped _ _) hw))
    exact congrArg State.settle ((if_pos hclear).trans ((if_pos hlt).trans hx))

/-! ## Peat (R112) -/

theorem State.deliver_peat {s : State} {n : Nat} {e : MpEntry} {v : MpValue} {k : Fin 2} (ho : e.owner = .vessel (kilnNo k))
    (hr : e.role = .peatState) (hm : s.mpOf (.vessel (kilnNo k)) .peatState = some n) : s.deliver n e v = s.kilnPeat k v.val := by
  unfold State.deliver
  rw [ho, hr, if_neg (by simp [hm])]
  dsimp only
  unfold State.deliverVessel State.runEmptyTest
  rw [vesselIs_kilnNo]
  dsimp only
  split
  · rw [if_neg (by simp [emptyRole])]
  · rfl

/-- Settles O30, by the cases of R112. -/
theorem peatIsTracked : Obligations.PeatIsTracked := by
  intro s n e v k ho hr hm
  have hd := State.deliver_peat (v := v) ho hr hm
  refine ⟨fun hb => ?_, fun m b hb => ⟨fun hv => ?_, fun hv => ?_⟩⟩
  · rw [hd]
    unfold State.kilnPeat
    rw [hb]
  · rw [hd]
    unfold State.kilnPeat
    rw [hb]
    dsimp only
    rw [if_neg hv, State.onKiln_onKiln]
  · intro gained sum
    rw [hd]
    unfold State.kilnPeat
    rw [hb]
    dsimp only
    rw [if_pos hv, show ∀ (t : State) f g, (t.onKiln k f).onSlot m g = (t.onSlot m g).onKiln k f from fun _ _ _ => rfl,
      State.onKiln_onKiln]
    rfl

end Sys2Proof.Machine
end

section
/-! PROOFS. The trunk: what the transmitter takes, how notices and replies queue, and the timers of the trunk and the lock
(R149, R150, R165 to R173, R189). -/

namespace Sys2Proof.Machine

-- One declaration after the other: side by side, their stacks are more than the check's bound on memory.
set_option Elab.async false

/-! ## The arbiter (R172) -/

theorem State.takeTelegram_reply {s : State} {r : Reply} {rs : List Reply} (h : s.trunk.replies = r :: rs) :
    s.takeTelegram = s.onTrunk fun t => { t with
      replies := rs
      tx := some { origin := .reply r.isReset, bytes := telegram r.dest s.ownAddr tREPLY r.seq r.payload } } := by
  unfold State.takeTelegram
  rw [h]

theorem State.takeTelegram_refusal {s : State} {r : Refused} {rs : List Refused} (h1 : s.trunk.replies = [])
    (h2 : s.trunk.refusals = r :: rs) :
    s.takeTelegram = s.onTrunk fun t => { t with
      refusals := rs, seq := (t.seq + 1) % 256
      tx := some { origin := .refusal, bytes := telegram s.plantAddr s.ownAddr tREFUSAL t.seq r.payload } } := by
  unfold State.takeTelegram
  rw [h1, h2]

theorem State.takeTelegram_sample {s : State} {u : UpSample} {us : List UpSample} (h1 : s.trunk.replies = [])
    (h2 : s.trunk.refusals = []) (h3 : s.notices.queue = []) (h4 : s.trunk.up = u :: us) :
    s.takeTelegram = s.onTrunk fun t => { t with
      up := us, tx := some { origin := .sample, bytes := telegram s.plantAddr u.src tSAMPLE u.seq u.payload } } := by
  unfold State.takeTelegram
  rw [h1, h2, h3, h4]

/-- The end of a telegram that is not PART RESET's reply leaves the transmitter to the arbiter. -/
theorem State.transmitComplete_takes {s : State} {x : Sending} (htx : s.trunk.tx = some x) (hd : s.mgmt.resetDue = false)
    (hx : x.origin ≠ .reply true) : s.sent = (s.onTrunk fun t => { t with tx := none }).takeTelegram := by
  have hk : (s.onTrunk fun t => { t with tx := none }).kick = (s.onTrunk fun t => { t with tx := none }).takeTelegram := by
    unfold State.kick
    exact if_pos (by simp [hd])
  unfold State.sent
  rw [htx]
  dsimp only
  split
  · next h => exact absurd h hx
  · exact hk

@[simp] theorem State.takeTelegram_work (s : State) : s.takeTelegram.work = s.work := by
  unfold State.takeTelegram
  split
  · rfl
  · rfl
  · unfold State.promoteMark
    split <;> rfl
  · rfl
  · rfl

/-- The mark with the earliest time, set first among equal times, comes first in the search. -/
theorem earliest_eq {a b : List Notice} {m : Notice} (ha : ∀ z ∈ a, m.time < z.time) (hb : ∀ z ∈ b, m.time ≤ z.time) :
    earliest (a ++ m :: b) = some m := by
  have key : ∀ l : List Notice, ∀ x, earliest l = some x → x ∈ l := fun l => by
    induction l with
    | nil => exact fun x h => nomatch h
    | cons y l ih =>
      intro x h
      unfold earliest at h
      split at h
      · next z hz =>
        split at h
        · exact List.mem_cons_of_mem _ (ih _ (hz.trans h))
        · exact Option.some.inj h ▸ List.mem_cons_self ..
      · exact Option.some.inj h ▸ List.mem_cons_self ..
  induction a with
  | nil =>
    rw [List.nil_append]
    unfold earliest
    split
    · next z hz => exact if_neg (Nat.not_lt.2 (hb z (key b z hz)))
    · rfl
  | cons y a ih =>
    rw [List.cons_append]
    unfold earliest
    rw [ih fun z hz => ha z (List.mem_cons_of_mem _ hz)]
    exact if_pos (ha y (List.mem_cons_self ..))

theorem State.promoteMark_eq {s : State} {a b : List Notice} {m : Notice} (h : s.notices.marks = a ++ m :: b)
    (ha : ∀ z ∈ a, m.time < z.time) (hb : ∀ z ∈ b, m.time ≤ z.time) :
    s.promoteMark = s.onNotices fun n =>
      { queue := n.queue ++ [{ m with state := s.sourceState m }], marks := a ++ b } := by
  have hm : m ∉ a := fun hin => Nat.lt_irrefl _ (ha m hin)
  have herase : (a ++ m :: b).erase m = a ++ b := by rw [List.erase_append_right _ hm, List.erase_cons_head]
  unfold State.promoteMark
  rw [h, earliest_eq ha hb]
  dsimp only [State.onNotices]
  rw [h, herase]

theorem State.takeTelegram_notice_unmarked {s : State} {n : Notice} {ns : List Notice} (h1 : s.trunk.replies = [])
    (h2 : s.trunk.refusals = []) (h3 : s.notices.queue = n :: ns) (h4 : s.notices.marks = []) :
    s.takeTelegram = (s.onNotices fun q => { q with queue := ns }).onTrunk fun t => { t with
      seq := (t.seq + 1) % 256
      tx := some { origin := .notice, bytes := telegram s.plantAddr s.ownAddr tNOTICE t.seq n.payload } } := by
  rw [State.takeTelegram_notice h1 h2 h3, State.promoteMark_of_no_mark (s := s.onNotices fun q => { q with queue := ns }) h4]

/-- The earliest mark goes to the back of the queue that a notice leaves. -/
theorem State.takeTelegram_notice_marked {s : State} {n : Notice} {ns a b : List Notice} {m : Notice} (h1 : s.trunk.replies = [])
    (h2 : s.trunk.refusals = []) (h3 : s.notices.queue = n :: ns) (h4 : s.notices.marks = a ++ m :: b)
    (ha : ∀ z ∈ a, m.time < z.time) (hb : ∀ z ∈ b, m.time ≤ z.time) :
    s.takeTelegram = (s.onNotices fun _ => { queue := ns ++ [{ m with state := s.sourceState m }], marks := a ++ b }).onTrunk
      fun t => { t with
        seq := (t.seq + 1) % 256
        tx := some { origin := .notice, bytes := telegram s.plantAddr s.ownAddr tNOTICE t.seq n.payload } } := by
  rw [State.takeTelegram_notice h1 h2 h3, State.promoteMark_eq (s := s.onNotices fun q => { q with queue := ns }) h4 ha hb]
  rfl

/-! ## The state of a mark's source (Table 11-8) -/

theorem vesselOf_val (v : Fin 12) : vesselOf v.val = some v := dif_pos v.isLt
theorem twoOf_val (t : Fin 2) : twoOf t.val = some t := dif_pos t.isLt

/-- Settles O38, by the first source that has a telegram ready. -/
theorem transmitterTakesByPriority : Obligations.TransmitterTakesByPriority := by
  intro s x hw htx hd
  refine ⟨fun hx => ?_, fun hx => ?_⟩
  · show Host.Outcome.next s.sent.settle = _
    unfold State.sent
    rw [htx]
    dsimp only
    rw [hx]
    exact congrArg Host.Outcome.next (State.settle_of_idle hw)
  · have hsent : exec .transmitComplete s = .next (s.onTrunk fun t => { t with tx := none }).takeTelegram := by
      show Host.Outcome.next s.sent.settle = _
      rw [State.transmitComplete_takes htx hd hx, State.settle_of_idle (by simp [hw])]
    refine ⟨fun r rs h => ?_, fun r rs h1 h2 => ?_, fun n ns h1 h2 h3 h4 => ?_, fun n ns a m b h1 h2 h3 h4 ha hb => ?_,
      fun u us h1 h2 h3 h4 => ?_, fun h1 h2 h3 h4 => ?_⟩
    · rw [hsent, State.takeTelegram_reply (s := s.onTrunk fun t => { t with tx := none }) h]
      rfl
    · rw [hsent, State.takeTelegram_refusal (s := s.onTrunk fun t => { t with tx := none }) h1 h2]
      rfl
    · rw [hsent, State.takeTelegram_notice_unmarked (s := s.onTrunk fun t => { t with tx := none }) h1 h2 h3 h4]
      rfl
    · intro becomes
      have hst : becomes (s.sourceState m) := by
        show exec .transmitComplete s = _
        rw [hsent, State.takeTelegram_notice_marked (s := s.onTrunk fun t => { t with tx := none }) h1 h2 h3 h4 ha hb]
        rfl
      clear_value becomes
      have goes : ∀ {n : Nat}, s.sourceState m = n → becomes n := fun h => h ▸ hst
      unfold State.sourceState at goes
      refine ⟨fun hk => goes ?_, fun v hv => ⟨fun hk => goes ?_, fun hk => goes ?_, fun hk => goes ?_, fun hk => goes ?_⟩,
        fun hk hc => goes ?_, fun hk hc => goes ?_, fun t hk ht => goes ?_, fun hk => ⟨fun r hr hs => goes ?_, fun hs => goes ?_⟩,
        fun hk => goes ?_⟩
      · rw [hk]
        dsimp only
        rcases (s.live m.idx).comp with _ | ⟨_ | _ | _⟩ | _ <;> rfl
      · rw [hk, hv, vesselOf_val]
        exact ite_congr rfl And.right fun _ => rfl
      · rw [hk, hv, vesselOf_val]
      · rw [hk, hv, vesselOf_val]
      · rw [hk, hv, vesselOf_val]
        dsimp only [Option.bind_some]
        cases (s.vessel v).fault <;> rfl
      · rw [hk]
        exact if_pos hc
      · rw [hk]
        dsimp only
        rw [if_neg (by rw [hc]; decide)]
        cases s.field.health.get m.idx <;> rfl
      · rw [hk, ht, twoOf_val]
      · rw [hk]
        dsimp only
        rw [hr]
        exact if_pos hs
      · rw [hk]
        dsimp only
        split
        · next r hr => exact if_neg (hs r hr)
        · rfl
      · rcases hk with hk | hk | hk | hk | hk <;> rw [hk]
    · rw [hsent, State.takeTelegram_sample (s := s.onTrunk fun t => { t with tx := none }) h1 h2 h3 h4]
      rfl
    · rw [hsent, State.takeTelegram_empty (s := s.onTrunk fun t => { t with tx := none }) h1 h2 h3 h4]

theorem State.onNotices_congr {s : State} {f g : Notices → Notices} (h : f s.notices = g s.notices) :
    s.onNotices f = s.onNotices g := by
  unfold State.onNotices
  rw [h]

theorem Notice.key_eq_iff (m n : Notice) : (m.kind = n.kind ∧ m.cls = n.cls ∧ m.idx = n.idx) ↔ m.key = n.key := by
  simp [Notice.key, Prod.ext_iff]

/-- The first mark of its source and kind joins the marks. -/
theorem setMark_new {marks : List Notice} {n : Notice} (h : ∀ m ∈ marks, m.key ≠ n.key) : setMark marks n = marks ++ [n] := by
  unfold setMark
  rw [if_neg]
  simp only [List.any_eq_true, decide_eq_true_eq, Notice.key_eq_iff]
  exact fun ⟨m, hin, hk⟩ => h m hin hk

/-- The mark of the source and kind is raised, and keeps its time. -/
theorem setMark_raises {a b : List Notice} {m n : Notice} (hk : m.key = n.key) (h : ∀ x ∈ a ++ b, x.key ≠ n.key) :
    setMark (a ++ m :: b) n = a ++ { m with count := satAdd 255 m.count 1, state := n.state, value := n.value } :: b := by
  have keep : ∀ l : List Notice, (∀ x ∈ l, x.key ≠ n.key) → l.map (fun m =>
      if m.kind = n.kind ∧ m.cls = n.cls ∧ m.idx = n.idx then
        { m with count := satAdd 255 m.count 1, state := n.state, value := n.value }
      else m) = l := fun l hl =>
    (List.map_congr_left fun x hx => if_neg fun h => hl x hx ((x.key_eq_iff n).1 h)).trans (List.map_id l)
  unfold setMark
  rw [if_pos (List.any_eq_true.2 ⟨m, by simp, by simpa using (m.key_eq_iff n).2 hk⟩), List.map_append, List.map_cons,
    keep a fun x hx => h x (List.mem_append_left _ hx), keep b fun x hx => h x (List.mem_append_right _ hx),
    if_pos ((m.key_eq_iff n).2 hk)]

/-- Settles O39, by the room in the queue and the mark of the source and kind. -/
theorem noticeJoinsTheQueueOrItsMark : Obligations.NoticeJoinsTheQueueOrItsMark := by
  intro s k c i st v n
  refine ⟨fun hq hb => State.post_busy hb hq .., fun hq hn => ?_, fun hq a m b hm hmk hn => ?_⟩
  · rw [State.post_full hq]
    exact State.onNotices_congr (congrArg (fun l => ({ s.notices with marks := l } : Notices)) (setMark_new (n := n) hn))
  · rw [State.post_full hq]
    exact State.onNotices_congr (congrArg (fun l => ({ s.notices with marks := l } : Notices))
      ((congrArg (setMark · n) hm).trans (setMark_raises (n := n) hmk hn)))

/-! ## Replies (R172, R182) -/

theorem fillFrom_some (draw i : Nat) (bs : List Byte) : fillFrom draw i (bs.map some) = bs := by
  induction bs generalizing i with
  | nil => rfl
  | cons b bs ih => exact congrArg (b :: ·) (ih (i + 1))

/-- A ready reply that the transmitter takes is still the first to go out. -/
theorem State.kick_replies {s : State} {r : Reply} {rs : List Reply} (h : s.trunk.replies = r :: rs) :
    s.kick.replyTelegrams = s.replyTelegrams ∧ s.kick.trunk.held = s.trunk.held ∧ s.kick.draws = s.draws := by
  unfold State.kick
  split
  · next hidle =>
    have htx : s.trunk.tx = none := by
      simp only [Bool.and_eq_true, Option.isNone_iff_eq_none] at hidle
      exact hidle.1
    rw [State.takeTelegram_reply h]
    refine ⟨?_, rfl, rfl⟩
    unfold State.replyTelegrams
    rw [h, htx]
    rfl
  · exact ⟨rfl, rfl, rfl⟩

/-- Settles O40: the reply stands behind the others before and after the transmitter takes the first of them. -/
theorem replyGoesOutInOrder : Obligations.ReplyGoesOutInOrder := by
  intro s dst seq cls code st d bs t
  let p : List Byte := beBytes 1 cls ++ beBytes 1 code ++ beBytes 1 st.code ++ beBytes 1 d ++ bs
  let x : Reply := { dest := dst, seq := seq, payload := p, isReset := false }
  let u : State := s.onTrunk fun t => { t with held := t.held - 1, replies := t.replies ++ [x] }
  have ht : t = u.kick := by
    show s.formReply dst seq cls code st d (bs.map some) false = _
    unfold State.formReply
    dsimp only
    rw [fillFrom_some, if_neg (by simp)]
  obtain ⟨r, rs, hr⟩ : ∃ r rs, u.trunk.replies = r :: rs := List.exists_cons_of_ne_nil (by simp [u])
  obtain ⟨h1, h2, h3⟩ := State.kick_replies hr
  rw [ht]
  refine ⟨h1.trans ?_, h2, h3⟩
  have hp : p = BitVec.ofNat 8 cls :: BitVec.ofNat 8 code :: BitVec.ofNat 8 st.code :: BitVec.ofNat 8 d :: bs := by
    simp [p, beBytes]
  unfold State.replyTelegrams
  rw [← hp, List.append_assoc]
  exact congrArg _ (List.map_append ..)

/-! ## Trunk silence and the lock's timers (R149, R150, R173) -/

/-- Taking a telegram leaves the silence timer and the mark of a lost trunk. -/
theorem State.takeTelegram_link (s : State) :
    s.takeTelegram.trunk.silence = s.trunk.silence ∧ s.takeTelegram.trunk.lost = s.trunk.lost := by
  unfold State.takeTelegram
  split
  · exact ⟨rfl, rfl⟩
  · exact ⟨rfl, rfl⟩
  · unfold State.promoteMark
    split <;> exact ⟨rfl, rfl⟩
  · exact ⟨rfl, rfl⟩
  · exact ⟨rfl, rfl⟩

theorem State.post_link (s : State) (k : NoticeKind) (c : SourceClass) (i n : Nat) (v : Int) :
    (s.post k c i n v).trunk.silence = s.trunk.silence ∧ (s.post k c i n v).trunk.lost = s.trunk.lost := by
  unfold State.post State.kick
  dsimp only
  split
  · split
    · exact State.takeTelegram_link _
    · exact ⟨rfl, rfl⟩
  · exact ⟨rfl, rfl⟩

/-- The state in which the plant's telegram has restored a lost trunk, but for the scan. -/
def State.restored (s : State) : State :=
  (s.onTrunk fun t => { t with silence := some s.silenceTenths, lost := false }).post .station .trunk s.plantAddr 1 0

theorem State.restored_tables (s : State) : s.restored.tables = s.tables := State.post_tables ..
theorem State.restored_transfer (s : State) : s.restored.transfer = s.transfer := State.post_transfer ..
theorem State.restored_work (s : State) : s.restored.work = s.work := State.post_work ..

/-- On a trunk that is restored, the plant's telegram finds the timer loaded as it has left it. -/
theorem State.heard_restored (s : State) : s.restored.heard s.plantAddr = s.restored := by
  have hp : s.plantAddr = s.restored.plantAddr := by unfold State.plantAddr; rw [s.restored_tables]
  have hs : s.restored.silenceTenths = s.silenceTenths := by unfold State.silenceTenths; rw [s.restored_tables]
  obtain ⟨h1, h2⟩ : s.restored.trunk.silence = some s.silenceTenths ∧ s.restored.trunk.lost = false := State.post_link ..
  rw [hp, State.heard_plant h2, hs]
  generalize s.restored = u at h1
  unfold State.onTrunk
  rw [← h1]

/-- An event that is prompted with none under way is taken at once. -/
theorem State.settle_emit {s : State} {e : Event} (h : s.work = []) (h' : (s.takeEvent e).work = []) :
    (s.emit e).settle = s.takeEvent e := by
  have hs : ({ s.emit e with work := [] } : State) = s := congrArg (fun w => { s with work := w }) h.symm
  have hone := State.settle_of_one (s := s.emit e) (e := e) (congrArg (· ++ [e]) h)
  rw [hs] at hone
  exact hone h'

/-- The restored trunk's scan starts the oldest eligible request. -/
theorem State.heard_starts {s : State} (hw : s.work = []) (hl : s.trunk.lost = true) {q : TransferReq} {d : Fin 13}
    (hrun : s.transfer.running = none)
    (hq : (s.transfer.requests.findSome? fun x => (s.restored.eligible x).map fun y => (x, y)) = some (q, d))
    (hidle : (s.restored.startTransfer q d).work = []) : s.heard s.plantAddr = s.restored.startTransfer q d := by
  have hscan : s.restored.takeEvent .scan = s.restored.startTransfer q d := by
    show s.restored.scan = _
    unfold State.scan
    rw [s.restored_transfer, hrun, if_neg (by simp), hq]
  unfold State.heard
  rw [if_neg (by simp), if_pos hl]
  exact (State.settle_emit (s := s.restored) (s.restored_work.trans hw) (by rw [hscan]; exact hidle)).trans hscan

/-- Settles O37: each expiry by what it finds, and a lost trunk by the scan that its restoring prompts. -/
theorem lockAndTrunkTimersEndTheirStates : Obligations.LockAndTrunkTimersEndTheirStates := by
  intro s hw
  refine ⟨fun hi hl hm ha hn => ?_, fun hl => ?_, fun ht => ?_, fun bytes f hl hc hf hsrc => ?_⟩
  · have hsf := Excise.storeFault_of_avail ha
    show Host.Outcome.next s.idleExpires.settle = _
    unfold State.idleExpires
    rw [if_pos ⟨hi, hl, by rw [hm]; rfl⟩]
    unfold State.relock State.writeLock
    dsimp only
    rw [if_pos (show 1 ≤ (s.onExcise fun e => { e with lock := .locked, idle := none, staged := e.now.tables }).excise.avail from ha)]
    refine congrArg Host.Outcome.next (State.settle_of_idle ((State.post_work ..).trans ?_))
    rw [State.writeEntry_room (s := s.onExcise fun e => { e with lock := .locked, idle := none, staged := e.now.tables }) _ hsf hn]
    exact hw
  · show Host.Outcome.next s.lockoutExpires.settle = _
    unfold State.lockoutExpires
    rw [if_pos hl]
    exact congrArg Host.Outcome.next (State.settle_of_idle ((State.post_work ..).trans hw))
  · show Host.Outcome.next s.silenceExpires.settle = _
    unfold State.silenceExpires
    rw [if_pos ht]
    exact congrArg Host.Outcome.next (State.settle_of_idle ((State.post_work ..).trans hw))
  · intro up
    refine ⟨fun hn => ?_, fun q d hr hq hown h63 hidle => ?_⟩
    · have h1 : s.heard f.src = s.restored := by rw [hsrc]; exact State.heard_restores hw hn hl
      have h2 : up.heard f.src = s.restored := by rw [hsrc]; exact State.heard_restored s
      show Host.Outcome.next (s.trunkArrives bytes).settle = Host.Outcome.next (up.trunkArrives bytes).settle
      unfold State.trunkArrives
      rw [if_pos hc, if_pos hc, hf]
      dsimp only
      rw [h1, h2]
    · have h1 : s.heard f.src = up.startTransfer q d := by rw [hsrc]; exact State.heard_starts hw hl hr hq hidle
      show Host.Outcome.next (s.trunkArrives bytes).settle = _
      unfold State.trunkArrives
      rw [if_pos hc, hf]
      dsimp only
      rw [h1, if_neg hown, if_neg (by omega), State.settle_of_idle hidle]

/-! ## Telegrams and their bytes (R165, R166) -/

theorem ofBytes_beBytes_two {n : Nat} (h : n < 65536) : ofBytes (beBytes 2 n) = n := by
  simp only [beBytes, ofBytes, List.foldl_cons, List.foldl_nil, BitVec.toNat_ofNat]
  omega

/-- The bytes of a telegram before its check. -/
def telegramBody (dst src kind seq : Nat) (payload : List Byte) : List Byte :=
  beBytes 1 dst ++ beBytes 1 src ++ beBytes 1 kind ++ beBytes 1 seq ++ beBytes 1 payload.length ++ payload

theorem telegram_eq (dst src kind seq : Nat) (payload : List Byte) :
    telegram dst src kind seq payload = telegramBody dst src kind seq payload ++
      beBytes 2 (crc16 (telegramBody dst src kind seq payload)).toNat := rfl

theorem checkPasses_telegram (dst src kind seq : Nat) (payload : List Byte) :
    checkPasses (telegram dst src kind seq payload) = true := by
  rw [telegram_eq]
  generalize telegramBody dst src kind seq payload = body
  have hlen : (body ++ beBytes 2 (crc16 body).toNat).length = body.length + 2 := List.length_append
  unfold checkPasses
  rw [hlen, Nat.add_sub_cancel, List.take_left, List.drop_left, ofBytes_beBytes_two (crc16 body).isLt]
  simp

/-- A telegram of legal length is taken apart into its fields. -/
theorem frameOf_telegram {dst src kind seq : Nat} {payload : List Byte} (hd : dst < 256) (hs : src < 256) (hk : kind < 256)
    (hq : seq < 256) (hp : payload.length ≤ 48) :
    frameOf (telegram dst src kind seq payload) = some { dst, src, kind, seq, payload } := by
  have byte : ∀ {n : Nat}, n < 256 → (BitVec.ofNat 8 (n / 256 ^ 0)).toNat = n := fun h => by
    rw [Nat.pow_zero, Nat.div_one, BitVec.toNat_ofNat]
    exact Nat.mod_eq_of_lt h
  rw [telegram_eq]
  generalize (crc16 (telegramBody dst src kind seq payload)).toNat = c
  show frameOf (BitVec.ofNat 8 (dst / 256 ^ 0) :: BitVec.ofNat 8 (src / 256 ^ 0) :: BitVec.ofNat 8 (kind / 256 ^ 0) ::
    BitVec.ofNat 8 (seq / 256 ^ 0) :: BitVec.ofNat 8 (payload.length / 256 ^ 0) :: (payload ++ beBytes 2 c)) = _
  unfold frameOf
  dsimp only
  rw [byte hd, byte hs, byte hk, byte hq, byte (by omega), if_pos ⟨hp, List.length_append⟩, List.take_left]

theorem toNat_append_byte {w : Nat} (x : BitVec w) (b : Byte) : (x ++ b).toNat = x.toNat * 256 + b.toNat := by
  rw [BitVec.toNat_append, ← Nat.shiftLeft_add_eq_or_of_lt b.isLt, Nat.shiftLeft_eq]

theorem signOf_toNat {w : Nat} (x : BitVec (w + 1)) : signOf (w + 1) x.toNat = x.toInt := by
  unfold signOf
  rw [BitVec.toInt_eq_toNat_cond, Nat.mod_eq_of_lt x.isLt, Nat.add_sub_cancel]
  have hpow : 2 ^ (w + 1) = 2 * 2 ^ w := Nat.pow_succ'
  by_cases h : x.toNat < 2 ^ w
  · rw [if_pos h, if_pos (by omega)]
  · rw [if_neg h, if_neg (by omega)]
    push_cast
    rfl

/-- Four bytes spell the signed number of their word. -/
theorem ofBytesInt_four (a b c d : Byte) : ofBytesInt [a, b, c, d] = (a ++ b ++ c ++ d : BitVec 32).toInt := by
  have hn : ofBytes [a, b, c, d] = (a ++ b ++ c ++ d : BitVec 32).toNat := by
    rw [toNat_append_byte, toNat_append_byte, toNat_append_byte]
    simp only [ofBytes, List.foldl_cons, List.foldl_nil, Nat.zero_mul, Nat.zero_add]
  show signOf 32 (ofBytes [a, b, c, d]) = _
  rw [hn]
  exact signOf_toNat (w := 31) _

/-! ## Sorting (R168) -/

/-- A COMMAND telegram in its bytes is sorted as the command of its fields. -/
theorem State.trunkArrives_command (s : State) (dst src seq code a b c d tag : Byte) :
    s.trunkArrives (telegram dst.toNat src.toNat tCOMMAND seq.toNat [code, a, b, c, d, tag]) =
      s.commandArrives dst.toNat src.toNat code.toNat (a ++ b ++ c ++ d : BitVec 32).toInt tag.toNat := by
  unfold State.trunkArrives State.commandArrives
  rw [if_pos (checkPasses_telegram ..), frameOf_telegram dst.isLt src.isLt (by decide) seq.isLt (by simp)]
  dsimp only
  rw [ofBytesInt_four]
  by_cases hown : dst.toNat = (s.heard src.toNat).ownAddr
  · rw [if_pos hown, if_pos hown]
    rfl
  · rw [if_neg hown, if_neg hown]
    rfl

/-- A telegram of the trunk changes no committed table, where the scan it prompts finds nothing. -/
theorem State.heard_tables {s : State} (h : s.trunk.lost = false ∨ (s.work = [] ∧ s.noScan = true)) (src : Nat) :
    (s.heard src).tables = s.tables := by
  by_cases hl : s.trunk.lost = false
  · exact (State.heard_lost src hl).2.2.1
  · obtain ⟨hw, hn⟩ := h.resolve_left hl
    by_cases hs : src = s.plantAddr
    · rw [hs, State.heard_restores hw hn (by simpa using hl)]
      exact State.post_tables ..
    · rw [State.heard_other hs]

/-- A MGMT_REQUEST telegram to the part is taken as the request of its class and code. -/
theorem State.trunkArrives_request {s : State} (h : s.trunk.lost = false ∨ (s.work = [] ∧ s.noScan = true)) {src seq : Byte}
    {args : List Byte} (hlen : args.length ≤ 46) (hown : s.ownAddr < 256) {cls code : Byte} {hd : Handler}
    (hh : handlerOf cls.toNat code.toNat = some hd) :
    s.trunkArrives (telegram s.ownAddr src.toNat tREQUEST seq.toNat (cls :: code :: args)) =
      s.requestArrives cls.toNat code.toNat hd { src, seq, args } := by
  have hown' : (s.heard src.toNat).ownAddr = s.ownAddr := congrArg (fun t : Tables => t.config.own.getD 112) (State.heard_tables h _)
  have hlen' : (cls :: code :: args).length ≤ 48 := by
    rw [List.length_cons, List.length_cons]
    omega
  unfold State.trunkArrives State.requestArrives
  rw [if_pos (checkPasses_telegram ..), frameOf_telegram hown src.isLt (by decide) seq.isLt hlen', if_neg (by simpa using hlen)]
  dsimp only
  rw [if_pos hown'.symm, if_pos rfl]
  unfold State.takePayload
  dsimp only
  rw [hh, BitVec.ofNat_toNat, BitVec.ofNat_toNat]
  rfl

/-- Settles O41: the check and the layout of a telegram give back its fields, which are sorted as the command's are. -/
theorem telegramsAreTheirCommands : Obligations.TelegramsAreTheirCommands := by
  intro s hs
  refine ⟨fun dst src seq code a b c d tag => ?_, fun src seq args hlen hown => ?_⟩
  · intro tele
    have ht : exec (.trunkTelegram tele) s = exec (.trunkCommand dst src code (a ++ b ++ c ++ d) tag) s :=
      congrArg (fun t : State => Host.Outcome.next t.settle) (State.trunkArrives_command s dst src seq code a b c d tag)
    refine ⟨ht, fun hw hown h63 hsrc => ht.trans ?_⟩
    show Host.Outcome.next (s.commandArrives dst.toNat src.toNat code.toNat _ tag.toNat).settle = _
    rw [State.commandArrives_other hsrc hown h63]
    exact congrArg Host.Outcome.next (State.settle_of_idle (by simp [hw]))
  · intro tele r
    have key : ∀ (cls code : Byte) (hd : Handler), handlerOf cls.toNat code.toNat = some hd →
        exec (tele cls code) s = .next (s.requestArrives cls.toNat code.toNat hd r).settle := fun cls code hd hh =>
      congrArg (fun t : State => Host.Outcome.next t.settle) (State.trunkArrives_request hs hlen hown hh)
    exact ⟨key 1 1 _ rfl, key 2 1 _ rfl, key 3 1 _ rfl, key 4 1 _ rfl, key 5 3 _ rfl, key 6 4 _ rfl, key 7 5 _ rfl⟩

end Sys2Proof.Machine
end

section
/-! PROOFS. The excise register, its store and the draw plan, and the moisture account (R7, R8, R16, R136 to R139, R142, R148). -/

namespace Sys2Proof.Machine

-- One declaration after the other: side by side, their stacks are more than the check's bound on memory.
set_option Elab.async false

/-! ## Entries (R137 to R139) -/

/-- Settles O35: the entry is stamped by the plant time, and put into its slot. -/
theorem entryJoinsTheChain : Obligations.EntryJoinsTheChain := by
  intro s e hf hn t x
  have hx : s.stampEntry e = x := by
    unfold State.stampEntry
    cases hp : s.clock.plant <;> simp only [x, t, hp]
  have hnum : x.number = s.excise.now.next := by
    cases hp : s.clock.plant <;> simp [x, t, hp]
  have hw : s.writeEntry e = s.onExcise fun u => { u with
      now := { u.now with next := u.now.next + 1, chain := x.chain }
      slots := u.slots.put (slotOf u.now.next) x, fresh := u.fresh ++ [x] } := by
    rw [State.writeEntry_room e hf hn, hx]
  clear_value x
  refine ⟨?_, ?_, fun n hne => ?_⟩
  · rw [hw, hnum]
    rfl
  · rw [hw]
    exact Tbl.get_put_same ..
  · rw [hw]
    exact Tbl.get_put_ne _ hne _

/-! ## The store (R136) -/

/-- A good copy over the copy whose turn it is, with the next sequence number, is the one that a start-up takes. -/
theorem NvStore.best_putCopy (n : NvStore) (c : Counters) :
    (n.putCopy { seq := n.nextSeq, good := true, counters := c }).best = some { seq := n.nextSeq, good := true, counters := c } := by
  obtain ⟨f, a, b, sl⟩ := n
  rcases a with _ | ⟨i, _ | _, x⟩ <;> rcases b with _ | ⟨j, _ | _, y⟩ <;>
    simp [NvStore.putCopy, NvStore.writesA, NvStore.nextSeq, NvStore.best, copySeq]
  by_cases h : i < j
  · simp [h]
  · simp [h]

/-- A copy that is not good leaves the one that a start-up takes. -/
theorem NvStore.best_putCopy_bad (n : NvStore) {c : Copy} (h : c.good = false) : (n.putCopy c).best = n.best := by
  obtain ⟨f, a, b, sl⟩ := n
  rcases a with _ | ⟨i, _ | _, x⟩ <;> rcases b with _ | ⟨j, _ | _, y⟩ <;>
    simp [NvStore.putCopy, NvStore.writesA, NvStore.best, copySeq, h]
  by_cases hij : i < j
  · simp [hij, h]
  · simp [hij, h]

@[simp] theorem State.endLong_work (s : State) (o : Originator) (st : Status) (d : Nat) : (s.endLong o st d).work = s.work := by
  unfold State.endLong
  split
  · exact State.formReply_work ..
  · rfl

@[simp] theorem State.endLong_transfer (s : State) (o : Originator) (st : Status) (d : Nat) :
    (s.endLong o st d).transfer = s.transfer := by
  unfold State.endLong
  split
  · exact State.formReply_transfer ..
  · rfl

/-- With no transfer to abort, what STORE_FAULT sets out has no effect. -/
theorem State.settle_emit_storeFault {s : State} (h : s.work = []) (hr : s.transfer.running = none) :
    (s.emit .storeFault).settle = s := by
  have hs : s.takeEvent .storeFault = s := State.abortRun_of_idle hr .storeFault
  rw [State.settle_emit h (by rw [hs]; exact h), hs]

/-- The entry into STORE_FAULT of a unit that has store writes under way. -/
theorem State.enterStoreFault_settles {s : State} (hw : s.work = []) (hr : s.transfer.running = none)
    (hf : s.excise.storeFault = false) :
    let a := (s.onExcise fun e => { e with storeFault := true, jobs := [], fresh := [] }).post .excise .excise 0 4 0
    s.enterStoreFault.settle = if s.excise.jobs.any (·.reply) then a.endLong .excise .notReady 0 else a := by
  intro a
  have henter : s.enterStoreFault =
      (if s.excise.jobs.any (·.reply) then a.endLong .excise .notReady 0 else a).emit .storeFault := by
    unfold State.enterStoreFault
    rw [if_neg (by simp [hf])]
    rfl
  have haw : a.work = [] := (State.post_work ..).trans hw
  have har : a.transfer.running = none := by rw [State.post_transfer]; exact hr
  rw [henter, State.settle_emit_storeFault]
  · split
    · rw [State.endLong_work, haw]
    · exact haw
  · split
    · rw [State.endLong_transfer, har]
    · exact har

/-- Settles O36: the oldest job's copy becomes the best, and a copy that is not written leaves the best one. -/
theorem storeWritesEndDurableOrInFault : Obligations.StoreWritesEndDurableOrInFault := by
  intro s hw
  refine ⟨fun j js hj => ?_, fun w hj hf hr => ?_⟩
  · refine ⟨s.excise.nv.writeJob j, ?_, ?_, ?_, ?_⟩
    · unfold NvStore.writeJob
      dsimp only
      rw [NvStore.best_putCopy]
      rfl
    · unfold NvStore.writeJob NvStore.putCopy
      dsimp only
      split <;> rfl
    · unfold NvStore.writeJob NvStore.putCopy
      dsimp only
      split <;> rfl
    · show Host.Outcome.next s.copyWritten.settle = _
      have he : s.copyWritten = if j.reply then
          (s.onExcise fun e => { e with nv := s.excise.nv.writeJob j, jobs := js }).endLong .excise .ok 0
          else s.onExcise fun e => { e with nv := s.excise.nv.writeJob j, jobs := js } := by
        unfold State.copyWritten
        rw [hj]
        rfl
      rw [he]
      refine congrArg Host.Outcome.next (State.settle_of_idle ?_)
      split
      · rw [State.endLong_work]
        exact hw
      · exact hw
  · obtain ⟨j, js, hj⟩ := List.exists_cons_of_ne_nil hj
    let n : NvStore := { s.excise.nv with slots := putEntries s.excise.nv.slots j.entries }
    cases w with
    | slot =>
      refine ⟨s.excise.nv, rfl, rfl, ?_⟩
      show Host.Outcome.next (s.writeFails .slot).settle = _
      unfold State.writeFails
      rw [hj]
      dsimp only
      rw [State.enterStoreFault_settles hw hr hf, hj]
      rfl
    | copy =>
      refine ⟨n.putCopy { seq := n.nextSeq, good := false, counters := j.counters }, NvStore.best_putCopy_bad n rfl, ?_, ?_⟩
      · unfold NvStore.putCopy
        split <;> rfl
      · show Host.Outcome.next (s.writeFails .copy).settle = _
        unfold State.writeFails
        rw [hj]
        dsimp only
        have hx := State.enterStoreFault_settles (s := s.onExcise fun e => { e with
          nv := n.putCopy { seq := n.nextSeq, good := false, counters := j.counters } }) hw hr hf
        rw [← hj]
        exact congrArg Host.Outcome.next hx

/-! ## The draw plan (R148) -/

theorem planFrom_length (e n left k x : Nat) : (planFrom e n left k x).1.length = left := by
  induction left generalizing k x with
  | zero => rfl
  | succ left ih => exact congrArg (· + 1) (ih ..)

theorem genNext_div_lt (x : Nat) : genNext x / 256 < 256 := by
  unfold genNext
  omega

/-- Each point of a plan stands in the part of E that its place names. -/
theorem mem_planFrom {e n left k x p : Nat} (h : p ∈ (planFrom e n left k x).1) :
    ∃ j u, k ≤ j ∧ j < k + left ∧ u < 256 ∧ p = e * (256 * j + u) / (256 * n) := by
  induction left generalizing k x with
  | zero => exact nomatch h
  | succ left ih =>
    rcases List.mem_cons.1 h with rfl | h
    · exact ⟨k, _, Nat.le_refl k, by omega, genNext_div_lt x, rfl⟩
    · obtain ⟨j, u, hkj, hj, hu, hp⟩ := ih h
      exact ⟨j, u, by omega, by omega, hu, hp⟩

/-- Points of different parts ascend, where E gives each part more than a gram for each of its 256 steps. -/
theorem planPoint_lt {e n k u j v : Nat} (hn : 0 < n) (he : 256 * n ≤ e) (hkj : k < j) (hu : u < 256) :
    e * (256 * k + u) / (256 * n) < e * (256 * j + v) / (256 * n) := by
  have hstep : 256 * k + u + 1 ≤ 256 * j + v := by omega
  have hmul : e * (256 * k + u) + 256 * n ≤ e * (256 * j + v) := calc
    e * (256 * k + u) + 256 * n ≤ e * (256 * k + u) + e := Nat.add_le_add_left he _
    _ = e * (256 * k + u + 1) := (Nat.mul_succ ..).symm
    _ ≤ e * (256 * j + v) := Nat.mul_le_mul_left e hstep
  calc e * (256 * k + u) / (256 * n) < e * (256 * k + u) / (256 * n) + 1 := Nat.lt_succ_self _
    _ = (e * (256 * k + u) + 256 * n) / (256 * n) := (Nat.add_div_right _ (by omega)).symm
    _ ≤ e * (256 * j + v) / (256 * n) := Nat.div_le_div_right hmul

theorem planFrom_ascends {e n : Nat} (hn : 0 < n) (he : 256 * n ≤ e) (left k x : Nat) :
    (planFrom e n left k x).1.Pairwise (· < ·) := by
  induction left generalizing k x with
  | zero => exact List.Pairwise.nil
  | succ left ih =>
    refine List.pairwise_cons.2 ⟨fun p hp => ?_, ih ..⟩
    obtain ⟨j, v, hkj, -, -, rfl⟩ := mem_planFrom hp
    exact planPoint_lt hn he hkj (genNext_div_lt x)

/-! ## The start of a transfer (R122, R142) -/

namespace State.SameSurroundings

variable {a s : State}

theorem steepTo (h : a.SameSurroundings s) {i : Fin 4} {p : SteepState} : a.SameSurroundings (s.steepTo i p) :=
  h.ite h.onSteep.post
theorem compTo (h : a.SameSurroundings s) {c : Fin 6} {p : CompState} : a.SameSurroundings (s.compTo c p) := h.onComp.post
theorem kilnTo (h : a.SameSurroundings s) {k : Fin 2} {p : KilnState} : a.SameSurroundings (s.kilnTo k p) := h.onKiln.post

theorem evalGate (h : a.SameSurroundings s) {k : Fin 2} : a.SameSurroundings (s.evalGate k) :=
  h.ite ((h.onKiln.sendTo.ite h.onKiln).ite (h.onKiln.sendTo.ite h.onKiln))

/-- What the vessels are told of a start stays with them. -/
theorem tellStart (h : a.SameSurroundings s) (v : Fin 12) (d : Fin 13) : a.SameSurroundings (s.tellStart v d) := by
  have hsource : a.SameSurroundings (match vesselIs v with
      | .steep i => s.steepTo i .casting
      | .comp c => s.compTo c .unloading
      | .kiln k => (s.kilnTo k .stripping).evalGate k) := by
    split
    · exact h.steepTo
    · exact h.compTo
    · exact h.kilnTo.evalGate
  unfold State.tellStart
  dsimp only
  split
  · exact hsource.compTo
  · exact hsource.kilnTo.evalGate
  · exact hsource
  · exact hsource

theorem offerRoutes (h : a.SameSurroundings s) (l : List RouteStep) : a.SameSurroundings (s.offerRoutes l).1 := by
  induction l generalizing s with
  | nil => exact h
  | cons r l ih => exact ih (h.sendArgTo (st := some r.station))

end State.SameSurroundings

/-- The START entry leaves the transfer as it is, and of the excise unit's counters takes one number and one reserved entry. -/
theorem State.writeTransferEntry_room {s : State} (e : Entry) (hf : s.excise.storeFault = false) (hn : s.excise.now.next < max32) :
    ∃ c sl fr, s.writeTransferEntry e = s.onExcise fun u => { u with
      now := { u.now with reservation := u.now.reservation - 1, next := u.now.next + 1, chain := c }, slots := sl, fresh := fr } := by
  unfold State.writeTransferEntry
  rw [if_neg (by simp [hf]), State.writeEntry_room
    (s := s.onExcise fun u => { u with now := { u.now with reservation := u.now.reservation - 1 } }) _ hf hn]
  exact ⟨_, _, _, rfl⟩

/-- Settles O34: the start follows its one entry, and the points of the plan ascend from part to part. -/
theorem transferStartReservesAndPlans : Obligations.TransferStartReservesAndPlans := by
  refine ⟨fun s q d slot b base hb hbase hf hn => ?_, fun e n x he hn => ⟨planFrom_length .., ?_, ?_⟩⟩
  · intro e n t
    let run : Running :=
      { kind := q.kind, source := q.source, dest := d, fromPlant := q.fromPlant, batchId := b.id, state := .routing
        start := s.timeNow, route := [], expected := e, base, mass := 0, points := [], next := 0, out := none
        left := n + 2, routeTimer := none, noFlow := none, runOn := none, draw := none, ranOn := false, cause := none
        stops := [] }
    let s1 := (s.reserveEntries n).onTransfer fun t => { t with
      requests := t.requests.filter fun r => r.source ≠ q.source, running := some run, reserved := vesselOf d.val }
    obtain ⟨u, hu, hue, hut⟩ : ∃ u, ((s1.postTransfer q.source .routing d.val).tellStart q.source d).onSlot slot
        (fun b => { b with state := q.kind.moving }) = u ∧ u.excise = (s.reserveEntries n).excise ∧ u.transfer.running = some run := by
      have hs := ((State.SameSurroundings.refl s1).post (k := .transfer) (c := .transfer) (i := q.source.val)
        (n := TransferState.routing.code) (v := ((d.val : Nat) : Int))).tellStart q.source d
      exact ⟨_, rfl, hs.excise, (congrArg TransferRun.running hs.transfer :)⟩
    have huf : u.excise.storeFault = false := by rw [hue]; exact hf
    have hun : u.excise.now.next = s.excise.now.next := by rw [hue]; rfl
    have hugen : u.excise.now.gen = s.excise.now.gen := by rw [hue]; rfl
    have hures : u.excise.now.reservation = s.excise.now.reservation + (n + 2) := by rw [hue]; rfl
    obtain ⟨c, sl, fr, hw⟩ := State.writeTransferEntry_room (s := u) (run.entry kSTART 0 e) huf (by rw [hun]; omega)
    let x := ((u.writeTransferEntry (run.entry kSTART 0 e)).onExcise fun v => { v with
      now := { v.now with openNo := u.excise.now.next, gen := (planDraws e n u.excise.now.gen).2 } })
    obtain ⟨js, hc⟩ := State.closeEvent_excise x false
    let y := (x.closeEvent false).onRun fun r => { r with points := (planDraws e n u.excise.now.gen).1, left := n + 1 }
    let p := y.offerRoutes ((s.routeOf q.source d).getD [])
    have ht : t = p.1.onRun fun r => { r with route := p.2, routeTimer := s.runTimer (·.routeTime) } := by
      subst hu
      show s.startTransfer q d = _
      unfold State.startTransfer
      rw [hb, hbase] <;> rfl
    have hs := (State.SameSurroundings.refl y).offerRoutes ((s.routeOf q.source d).getD [])
    have hxe : x.excise = { u.excise with
        now := { u.excise.now with
          reservation := u.excise.now.reservation - 1, next := u.excise.now.next + 1, chain := c
          openNo := u.excise.now.next, gen := (planDraws e n u.excise.now.gen).2 }
        slots := sl, fresh := fr } := by
      simp only [x, hw]
      rfl
    have hte : t.excise.now = x.excise.now := by
      rw [ht]
      show p.1.excise.now = _
      rw [hs.excise]
      show (x.closeEvent false).excise.now = _
      rw [hc]
    have htr : t.transfer.running = some { run with
        points := (planDraws e n u.excise.now.gen).1, left := n + 1, route := p.2, routeTimer := s.runTimer (·.routeTime) } := by
      have hx : x.transfer.running = some run := by simp only [x, hw]; exact hut
      have hy : y.transfer.running = some { run with points := (planDraws e n u.excise.now.gen).1, left := n + 1 } := by
        simp only [y, hc, State.onRun, State.onTransfer_transfer, hx, Option.map_some]
      rw [ht]
      simp only [State.onRun, State.onTransfer_transfer]
      rw [show p.1.transfer = y.transfer from hs.transfer, hy]
      rfl
    rw [hte, hxe, hugen]
    rw [hugen] at htr
    refine ⟨?_, ?_, hun, rfl, _, htr, rfl, rfl, rfl, rfl, rfl, rfl, rfl, rfl, rfl, rfl⟩
    · show u.excise.now.reservation - 1 = _
      rw [hures]
      rfl
    · show u.excise.now.next + 1 = _
      rw [hun]
  · intro p hp
    obtain ⟨j, u, -, hj, hu, rfl⟩ := mem_planFrom hp
    have hn0 : 0 < n := by omega
    refine Nat.div_lt_of_lt_mul ?_
    rw [Nat.mul_comm e]
    exact Nat.mul_lt_mul_of_pos_right (by omega) (by omega)
  · rcases Nat.eq_zero_or_pos n with rfl | hn0
    · exact List.Pairwise.nil
    · exact planFrom_ascends hn0 (by omega) n 0 x

/-! ## The moisture account (R7, R8, R16) -/

/-- Settles O47, by the cases of the weighed mass and of the step. -/
theorem accountIsRebasedAndDried : Obligations.AccountIsRebasedAndDried := by
  refine ⟨fun b a g ha => ?_, fun b a q h dt ha hc => ?_⟩
  · intro w
    unfold Batch.weigh
    rw [ha]
    dsimp only
    by_cases hlow : g < a.dry
    · have hw : w = 0 := if_pos hlow
      have hhigh : ¬ (50000000 : Int) < g - a.dry := by omega
      rw [if_pos hlow, hw, decide_eq_true hlow, decide_eq_false hhigh, Bool.or_true, Bool.or_false]
      rfl
    · rw [show ((waterCeiling : Nat) : Int) = 50000000 from rfl]
      by_cases hhigh : (50000000 : Int) < g - a.dry
      · have hw : w = 50000000 := (if_neg hlow).trans (if_pos hhigh)
        rw [if_neg hlow, if_pos hhigh, hw, decide_eq_false hlow, decide_eq_true hhigh, Bool.or_true, Bool.or_false]
        rfl
      · have hw : w = (g - a.dry).toNat := (if_neg hlow).trans (if_neg hhigh)
        rw [if_neg hlow, if_neg hhigh, hw, decide_eq_false hlow, decide_eq_false hhigh, Bool.or_false, Bool.or_false]
        rfl
  · intro n
    have hn : (q : Int) * h * dt + a.rem = (n : Int) := by simp only [n]; push_cast; rfl
    have hdry : b.dry q h dt = if n / 6000 ≤ a.water then
        { b with acct := some (a.rebase (a.water - n / 6000) (n % 6000)) }
        else { b with acct := some (a.rebase 0 0), marks := { b.marks with waterFloor := true } } := by
      unfold Batch.dry
      rw [ha]
      dsimp only
      rw [hn]
      by_cases hle : n / 6000 ≤ a.water
      · have hint : ((n : Int) / 6000) ≤ a.water := by omega
        have hw : min waterCeiling ((a.water : Int) - (n : Int) / 6000).toNat = a.water - n / 6000 := by
          have hceil : waterCeiling = 50000000 := rfl
          omega
        have hr : ((n : Int) % 6000).toNat = n % 6000 := by omega
        rw [if_pos hint, if_pos hle, hw, hr]
      · rw [if_neg (by omega), if_neg hle]
    refine ⟨fun hle => ⟨a.rebase (a.water - n / 6000) (n % 6000), ?_, rfl, rfl, ?_, ?_, rfl⟩, fun hlt => ?_⟩
    · rw [hdry, if_pos hle]
    · show (a.water - n / 6000) * 6000 + n = a.water * 6000 + n % 6000
      omega
    · show n % 6000 < 6000
      omega
    · rw [hdry, if_neg (by omega)]
      unfold Account.rebase moistureOf
      simp

end Sys2Proof.Machine
end

section
/-! PROOFS. Requests of the classes TABLE and PART, plant time, and the requests that are turned away (R168, R182 to R188). -/

namespace Sys2Proof.Machine

-- One declaration after the other: side by side, their stacks are more than the check's bound on memory.
set_option Elab.async false

/-! ## WRITE ENTRY and DISCARD (R184) -/

theorem State.tableRight_plant {s : State} {id : Nat} (h : exciseTable id = false) : s.tableRight .plant id = .ok := by
  simp [State.tableRight, h]

theorem State.tableRight_excise {s : State} {id : Nat} (h : exciseTable id = false) : s.tableRight .excise id = .notPermitted := by
  simp [State.tableRight, h]

/-- WRITE ENTRY of an entry in a table of the plant's, by the originator. -/
theorem tableWrite_eq {s : State} {o : Originator} {r : Request} {id i : Byte} {body : List Byte} {n : Nat}
    (hn : entriesOf id.toNat = some n) (hx : exciseTable id.toNat = false) (hr : r.args = id :: i :: body) (hi : i.toNat < n) :
    tableWrite o r s = if s.tableRight o id.toNat ≠ .ok then s.says (s.tableRight o id.toNat) else
      match s.staged.write id.toNat i.toNat body with
      | some t => (s.onStaged fun _ => t).done
      | none => s.says .badArgument := by
  unfold tableWrite
  rw [hr]
  dsimp only
  rw [hn]
  dsimp only
  rw [if_neg (Nat.not_le.2 hi), hx, if_neg Bool.false_ne_true] <;> rfl

theorem tableDiscard_eq {s : State} {o : Originator} {r : Request} {id : Byte} {n : Nat}
    (hn : entriesOf id.toNat = some n) (hx : exciseTable id.toNat = false) (hr : r.args = [id]) :
    tableDiscard o r s = if s.tableRight o id.toNat ≠ .ok then s.says (s.tableRight o id.toNat) else
      (s.onStaged fun t => t.take s.tables id.toNat).done := by
  unfold tableDiscard
  rw [hr]
  dsimp only
  rw [hn]
  dsimp only
  rw [hx, if_neg Bool.false_ne_true]

/-- Settles O43, by the originator's right and the fields of the entry. -/
theorem writesAndDiscardsAreStaged : Obligations.WritesAndDiscardsAreStaged := by
  intro s r id n hn hx
  refine ⟨fun i body hr hi => ⟨fun h => ⟨fun x hw => ?_, fun hw => ?_⟩, fun h => ?_⟩, fun hr => ⟨fun h => ?_, fun h => ?_⟩⟩
  · refine congrArg Host.Outcome.next (State.requestArrives_settles h (a := .of .ok) ?_ (State.takes_iff.1 h).1)
    rw [tableWrite_eq hn hx hr hi, State.tableRight_plant hx, if_neg (by simp), State.received_staged, hw]
    rfl
  · refine congrArg Host.Outcome.next (State.requestArrives_says h ?_)
    rw [tableWrite_eq hn hx hr hi, State.tableRight_plant hx, if_neg (by simp), State.received_staged, hw]
  · refine congrArg Host.Outcome.next (State.requestArrives_says h ?_)
    rw [tableWrite_eq hn hx hr hi, State.tableRight_excise hx, if_pos (by simp)]
  · refine congrArg Host.Outcome.next (State.requestArrives_settles h (a := .of .ok) ?_ (State.takes_iff.1 h).1)
    rw [tableDiscard_eq hn hx hr, State.tableRight_plant hx, if_neg (by simp)]
    rfl
  · refine congrArg Host.Outcome.next (State.requestArrives_says h ?_)
    rw [tableDiscard_eq hn hx hr, State.tableRight_excise hx, if_pos (by simp)]

/-! ## Plant time (R185) -/

theorem readNat_three_bind {α : Type} (lo hi : Nat) (x y z : Byte) (l : List Byte) (f : Nat × List Byte → Option α) :
    (readNat 3 lo hi (x :: y :: z :: l) >>= f) =
      if lo ≤ (x.toNat * 256 + y.toNat) * 256 + z.toNat ∧ (x.toNat * 256 + y.toNat) * 256 + z.toNat ≤ hi then
        f ((x.toNat * 256 + y.toNat) * 256 + z.toNat, l) else none := by
  have hlen : ¬ (x :: y :: z :: l).length < 3 := by simp
  have hn : ofBytes ((x :: y :: z :: l).take 3) = (x.toNat * 256 + y.toNat) * 256 + z.toNat := by simp [ofBytes]
  unfold readNat
  rw [if_neg hlen, hn]
  dsimp only
  by_cases h : lo ≤ (x.toNat * 256 + y.toNat) * 256 + z.toNat ∧ (x.toNat * 256 + y.toNat) * 256 + z.toNat ≤ hi
  · rw [if_pos h, if_pos h]
    rfl
  · rw [if_neg h, if_neg h]
    rfl

theorem readAll_plantTime (a b c d e : Byte) : readAll readPlantTime [a, b, c, d, e] =
    if (c.toNat * 256 + d.toNat) * 256 + e.toNat ≤ 86399 then
      some { day := a.toNat * 256 + b.toNat, second := (c.toNat * 256 + d.toNat) * 256 + e.toNat } else none := by
  have hday : a.toNat * 256 + b.toNat ≤ 65535 := by have := a.isLt; have := b.isLt; omega
  unfold readAll readPlantTime
  rw [readNat_two_bind, if_pos ⟨Nat.zero_le _, hday⟩]
  dsimp only
  rw [readNat_three_bind]
  by_cases h : (c.toNat * 256 + d.toNat) * 256 + e.toNat ≤ 86399
  · rw [if_pos ⟨Nat.zero_le _, h⟩, if_pos h]
  · rw [if_neg (fun hn => h hn.2), if_neg h]

/-- A tenth of a second more of the plant time, as a count of tenths that wraps after the last day. -/
theorem PlantTime.tick_count {p : PlantTime} (hd : p.day < 65536) (hs : p.second < 86400) (ht : p.tenth < 10) :
    p.tick.day < 65536 ∧ p.tick.second < 86400 ∧ p.tick.tenth < 10 ∧
      (p.tick.day * 86400 + p.tick.second) * 10 + p.tick.tenth =
        ((p.day * 86400 + p.second) * 10 + p.tenth + 1) % (65536 * 86400 * 10) := by
  unfold PlantTime.tick
  by_cases h : p.tenth < 9
  · rw [if_pos h]
    dsimp only
    omega
  · rw [if_neg h]
    by_cases h' : p.second < 86399
    · rw [if_pos h']
      dsimp only
      omega
    · rw [if_neg h']
      dsimp only
      omega

/-- Settles O58. -/
theorem plantTimeIsSetAndCounts : Obligations.PlantTimeIsSetAndCounts := by
  refine ⟨fun s c hc => ?_, fun s r a b c d e hr => ?_, fun s => ⟨?_, fun hw hb => ?_⟩, fun p hd hs ht =>
    PlantTime.tick_count hd hs ht⟩
  · obtain ⟨e, n, tx, q, d, hx, -⟩ := resetClearsEveryBlock s c hc
    exact ⟨_, hx, rfl⟩
  · intro second
    have hsec : (c.toNat * 256 + d.toNat) * 256 + e.toNat = second := by simp only [second]; omega
    have hread := readAll_plantTime a b c d e
    rw [hsec] at hread
    clear_value second
    have hlen : ¬ r.args.length ≠ 5 := by simp [hr]
    refine ⟨fun h => ?_, fun h hlt => ?_, fun h hle => ?_⟩
    · refine congrArg Host.Outcome.next (State.requestArrives_says h ?_)
      unfold partSetPlantTime
      rw [if_neg hlen, if_pos (by decide)]
    · refine congrArg Host.Outcome.next (State.requestArrives_says h ?_)
      unfold partSetPlantTime
      rw [if_neg hlen, if_neg (by decide), hr, hread, if_neg (by omega)]
    · refine congrArg Host.Outcome.next (State.requestArrives_settles h (a := .of .ok) ?_ (State.takes_iff.1 h).1)
      unfold partSetPlantTime
      rw [if_neg hlen, if_neg (by decide), hr, hread, if_pos hle]
      rfl
  · rw [(tenthOfASecondRunsTheTimers s).1]
  · exact ⟨_, (markIsHeldOrStartsItsCycle.2.1 s hw).1 hb, State.onField_clock ..⟩

/-! ## PART CLEAR COUNTERS and PART RESET (R187, R188) -/

theorem State.clearCounts_eq (s : State) :
    s.clearCounts = ((((((s.onIntake fun i => { i with unmapped := 0 }).onTurner 0 fun x => { x with
      clamps := 0, ambiguous := 0, slips := 0 }).onTurner 1 fun x => { x with clamps := 0, ambiguous := 0, slips := 0 }).onFilter
        fun f => { f with refused := 0, stray := 0 }).onTrunk fun t =>
          { t with checkErrors := 0, lengthErrors := 0, notTaken := 0, drops := 0, refusalLoss := 0 }).onField fun f => { f with
            checkErrors := 0, lengthErrors := 0, overruns := 0, unexpected := 0, late := 0, lost := 0 }).onMgmt fun m =>
              { m with unknown := 0 } := by
  unfold State.clearCounts
  simp only [allTurners, List.foldl_cons, List.foldl_nil]

theorem partClearCounters_eq {s : State} {r : Request} (h : r.args = []) : partClearCounters .plant r s = s.clearCounts.done := by
  unfold partClearCounters
  rw [if_neg (by simp [h]), if_neg (by decide)]

theorem partReset_eq {s : State} {r : Request} (h : r.args = []) : partReset .plant r s =
    ((s.onMgmt fun m => { m with
      plant := some { src := r.src.toNat, seq := r.seq.toNat, cls := 7, code := 5 }, stopped := true }).formReply
        r.src.toNat r.seq.toNat 7 5 .ok 0 [] true, none) := by
  unfold partReset
  rw [if_neg (by simp [h]), if_neg (by decide)]
  rfl

/-- Settles O59, by what the two handlers leave. -/
theorem partRequestsActOnThePart : Obligations.PartRequestsActOnThePart := by
  intro s r h
  have hw := (State.takes_iff.1 h).1
  refine ⟨fun hr => ?_, fun hr => ?_⟩
  · have hs := State.requestArrives_settles h (cls := 7) (code := 4) (a := .of .ok) (partClearCounters_eq hr) hw
    rw [State.clearCounts_eq] at hs
    exact congrArg Host.Outcome.next hs
  · refine congrArg Host.Outcome.next ?_
    rw [State.requestArrives_begins h (partReset_eq hr)]
    exact State.settle_of_idle ((State.formReply_work ..).trans hw)

/-! ## Requests that are turned away (R168, R182, R183) -/

theorem handlerOf_of_not_named {c d : Byte} {l : List Byte} (h : namesRequest (c :: d :: l) = false) :
    handlerOf c.toNat d.toNat = none := by
  unfold handlerOf
  split <;> simp_all [namesRequest, requestClasses]

/-- A request that stands in a payload of legal length is a request as it arrives. -/
theorem State.takePayload_named (s : State) (src seq c d : Byte) (l : List Byte) (h : l.length ≤ 46) :
    (s.heard src.toNat).takePayload src seq (c :: d :: l) =
      s.requestArrives c.toNat d.toNat ((handlerOf c.toNat d.toNat).getD unknownReq) { src, seq, args := l } :=
  (if_neg (Nat.not_lt.2 h)).symm

/-- A payload without a code is an unknown request of the class that it carries. -/
theorem State.takePayload_short (s : State) (src seq : Byte) {p : List Byte} (h : p.drop 1 = []) :
    (s.heard src.toNat).takePayload src seq p =
      s.requestArrives ((p.head?.map BitVec.toNat).getD 0) 0 unknownReq { src, seq, args := [] } := by
  match p, h with
  | [], _ => exact (if_neg (by simp)).symm
  | [c], _ => exact (if_neg (by simp)).symm

theorem State.received_excise (s : State) :
    (s.onTrunk fun t => { t with held := t.held + 1 }).touchIdle .excise = s.received .excise := by
  unfold State.touchIdle State.received
  by_cases h : s.excise.lock = .unlocked <;> simp [h, State.onTrunk, State.onExcise, idleTenths]

/-- A request of a source that is not the plant controller's reaches the management unit on the state as it is. -/
theorem State.requestArrives_other {s : State} {r : Request} (hr : r.wf = true) (hsrc : r.src.toNat ≠ s.plantAddr)
    (cls code : Nat) (hd : Handler) : s.requestArrives cls code hd r = s.takeRequest cls code hd r := by
  unfold State.requestArrives
  rw [if_neg (Nat.not_lt.2 (of_decide_eq_true hr)), State.heard_other hsrc]

/-- Settles O60: an unknown request by what its payload carries, and the others by the first test that turns them away. -/
theorem requestsAreTurnedAway : Obligations.RequestsAreTurnedAway := by
  refine ⟨fun s o src seq p h hp hn => ?_, fun s r hw hr hsrc => ⟨fun hstop => ?_, fun hs hu ht => ?_, fun p hs hu ht hp => ?_⟩⟩
  · have harrives : s.payloadArrives src seq p = (s.heard src.toNat).takePayload src seq p := if_neg (Nat.not_lt.2 hp)
    have hx : exec (.unknownRequest src seq p) s = .next ((s.heard src.toNat).takePayload src seq p).settle :=
      congrArg (fun t : State => Host.Outcome.next t.settle) harrives
    rw [hx]
    refine congrArg Host.Outcome.next ?_
    rcases p with _ | ⟨c, _ | ⟨d, l⟩⟩
    · rw [State.takePayload_short s src seq rfl]
      exact State.requestArrives_says h (cls := 0) (code := 0) (hd := unknownReq) (st := .unknownRequest) rfl
    · rw [State.takePayload_short s src seq rfl]
      exact State.requestArrives_says h (cls := c.toNat) (code := 0) (hd := unknownReq) (st := .unknownRequest) rfl
    · have hl : l.length ≤ 46 := Nat.le_of_add_le_add_right (b := 2) hp
      obtain ⟨h1, -, h3⟩ := State.takes_iff.1 h
      rw [State.takePayload_named s src seq c d l hl, handlerOf_of_not_named hn]
      exact State.requestArrives_says (r := { src, seq, args := l }) (State.takes_iff.2 ⟨h1, hl, h3⟩) (cls := c.toNat)
        (code := d.toNat) (hd := unknownReq) (st := .unknownRequest) rfl
  · refine congrArg Host.Outcome.next ?_
    rw [State.requestArrives_other hr hsrc]
    unfold State.takeRequest
    rw [if_pos hstop]
    exact State.settle_of_idle hw
  · refine congrArg Host.Outcome.next ?_
    rw [State.requestArrives_other hr hsrc]
    unfold State.takeRequest State.originatorOf
    rw [if_neg (by simp [hs]; omega), if_neg hsrc, if_neg ht]
    exact State.settle_of_idle hw
  · refine congrArg Host.Outcome.next ?_
    rw [State.requestArrives_other hr hsrc]
    unfold State.takeRequest State.originatorOf
    rw [if_neg (by simp [hs]; omega), if_neg hsrc, if_pos ht]
    dsimp only
    rw [State.received_excise, show (s.received .excise).inProgress .excise = some p from hp]
    dsimp only
    rw [State.settle_of_idle (s := (s.received .excise).formReply ..) ((State.formReply_work ..).trans hw)]
    congr 1
    simp [putNat, beBytes]

end Sys2Proof.Machine
end

section
/-! PROOFS. Offers of the part's own blocks that follow each other, and what a notice leaves of their checks (R151 to R159). -/

namespace Sys2Proof.Machine

-- One declaration after the other: side by side, their stacks are more than the check's bound on memory.
set_option Elab.async false

/-! ## Room for an offer -/

/-- The checks of an offer read the committed tables, the modes and the filter alone. -/
theorem State.roomFor_congr {s t : State} (ht : t.tables = s.tables) (hv : t.vessels = s.vessels) (hf : t.filter = s.filter)
    (st code : Nat) (o : Origin) : t.roomFor st code o = s.roomFor st code o := by
  unfold State.roomFor State.modeAllows State.vessel
  rw [ht, hv, hf]

theorem State.roomFor_post (s : State) (k : NoticeKind) (c : SourceClass) (i n : Nat) (v : Int) (st code : Nat) (o : Origin) :
    (s.post k c i n v).roomFor st code o = s.roomFor st code o :=
  State.roomFor_congr (State.post_tables ..) (State.post_vessels ..) (State.post_filter ..) ..

/-- An offer at the back of the queue leaves room for one of another key, where a slot is left. -/
theorem State.roomFor_queued {s : State} {st' code' : Nat} {o' : Origin} (h : s.roomFor st' code' o' = true) {st code : Nat}
    (hne : st ≠ st' ∨ code ≠ code') (hlen : s.filter.queue.length < 15) (a : Int) (o : Origin) (p : Purpose) :
    (s.queued st code a o p).roomFor st' code' o' = true := by
  obtain ⟨h1, h2, h3, h4, h5, h6, h7, -, h9⟩ := State.roomFor_iff.1 h
  refine State.roomFor_iff.2 ⟨h1, h2, h3, h4, h5, h6, ?_, ?_, h9⟩
  · unfold Filter.entry at h7
    simp only [State.queued, State.onFilter_filter, Filter.entry, List.find?_append, h7, Option.none_or, List.find?_singleton]
    rw [if_neg]
    simp only [QEntry.keyed, Bool.and_eq_true, decide_eq_true_eq, not_and]
    exact fun hst hcode => hne.elim (fun hn => hn hst) (fun hn => hn hcode)
  · simp only [State.queued, State.onFilter_filter, List.length_append, List.length_singleton]
    omega

theorem State.queued_length (s : State) (st code : Nat) (a : Int) (o : Origin) (p : Purpose) :
    (s.queued st code a o p).filter.queue.length = s.filter.queue.length + 1 := by
  simp [State.queued]

theorem State.noArg_congr {s t : State} (h : t.filter = s.filter) : t.noArg = s.noArg := by
  unfold State.noArg
  rw [h]

/-! ## Offers to a steep's stations -/

theorem State.steepSend_none {s : State} {i : Fin 4} {station : SteepCfg → Option Nat}
    (h : (s.steepCfg i).bind station = none) (code : Nat) : s.steepSend i station code = s := by
  unfold State.steepSend
  rw [h]
  rfl

theorem State.steepSend_room {s : State} {i : Fin 4} {station : SteepCfg → Option Nat} {st code : Nat}
    (h : (s.steepCfg i).bind station = some st) (hroom : s.roomFor st code .sequencer = true)
    (hp : s.peatShut st code = false) (hd : dutyCode code = false) :
    s.steepSend i station code = s.queued st code s.noArg .sequencer (.vessel (steepNo i)) := by
  unfold State.steepSend
  rw [h]
  exact State.blockOffer_room (a := none) hroom hp (by decide) (State.burnerGuard_of_code hd _)

theorem State.steepSendArg_room {s : State} {i : Fin 4} {station : SteepCfg → Option Nat} {st code : Nat} {a : Int}
    (h : (s.steepCfg i).bind station = some st) (hroom : s.roomFor st code .sequencer = true) (hc : code ≠ cRUN)
    (hg : s.burnerGuard st code a = a) :
    s.steepSendArg i station code a = s.queued st code a .sequencer (.vessel (steepNo i)) := by
  unfold State.steepSendArg
  rw [h]
  exact State.blockOffer_room (a := some a) hroom (State.peatShut_of_code hc _) (by decide) hg

/-! ## Notices and replies beside other changes -/

/-- A change that neither the transmitter nor the notices read or touch: it can be made before or after a notice or a reply. -/
structure State.Beside (g : State → State) : Prop where
  onNotices : ∀ s f, g (s.onNotices f) = (g s).onNotices f
  onTrunk : ∀ s f, g (s.onTrunk f) = (g s).onTrunk f
  draw : ∀ s : State, g { s with draws := s.draws + 1 } = { g s with draws := (g s).draws + 1 }
  draws : ∀ s, (g s).draws = s.draws
  trunk : ∀ s, (g s).trunk = s.trunk
  notices : ∀ s, (g s).notices = s.notices
  mgmt : ∀ s, (g s).mgmt = s.mgmt
  tables : ∀ s, (g s).tables = s.tables
  clock : ∀ s, (g s).clock = s.clock
  source : ∀ s m, (g s).sourceState m = s.sourceState m

namespace State.Beside

variable {g : State → State} (h : State.Beside g)
include h

theorem promoteMark (s : State) : g s.promoteMark = (g s).promoteMark := by
  unfold State.promoteMark
  rw [h.notices]
  split
  · rw [h.onNotices, h.source]
  · rfl

theorem takeTelegram (s : State) : g s.takeTelegram = (g s).takeTelegram := by
  have hown : (g s).ownAddr = s.ownAddr := by unfold State.ownAddr; rw [h.tables]
  have hplant : (g s).plantAddr = s.plantAddr := by unfold State.plantAddr; rw [h.tables]
  unfold State.takeTelegram
  rw [h.trunk, h.notices, hown, hplant]
  split
  · exact h.onTrunk ..
  · exact h.onTrunk ..
  · rw [h.onTrunk, h.promoteMark, h.onNotices]
  · exact h.onTrunk ..
  · rfl

theorem kick (s : State) : g s.kick = (g s).kick := by
  unfold State.kick
  rw [h.trunk, h.mgmt, apply_ite g, h.takeTelegram]

theorem post (s : State) (k : NoticeKind) (c : SourceClass) (i n : Nat) (v : Int) : g (s.post k c i n v) = (g s).post k c i n v := by
  have hnow : (g s).timeNow = s.timeNow := by unfold State.timeNow; rw [h.clock]
  unfold State.post
  rw [h.notices, hnow]
  dsimp only
  rw [apply_ite g, h.kick, h.onNotices, h.onNotices]

theorem formReply (s : State) (dest seq cls code : Nat) (st : Status) (d : Nat) (r : ResultBytes) (x : Bool) :
    g (s.formReply dest seq cls code st d r x) = (g s).formReply dest seq cls code st d r x := by
  unfold State.formReply
  dsimp only
  rw [h.kick, h.onTrunk, h.draws, apply_ite g, h.draw, h.draws]

end State.Beside

theorem State.beside_onFilter (f : Filter → Filter) : State.Beside (·.onFilter f) := by
  constructor <;> intros <;> rfl
theorem State.beside_emit (e : Event) : State.Beside (·.emit e) := by
  constructor <;> intros <;> rfl
theorem State.beside_onBatch (f : BatchUnit → BatchUnit) : State.Beside (·.onBatch f) := by
  constructor <;> intros <;> rfl
theorem State.beside_onExcise (f : Excise → Excise) : State.Beside (·.onExcise f) := by
  constructor <;> intros <;> rfl

/-- A part of a bank's records that a change leaves is the same in the whole bank. -/
theorem bank_onBank_part {α β : Type} {n : Nat} {p : α → β} {f : α → α} (h : ∀ r, p (f r) = p r) (v : Vector α n) (i j : Fin n) :
    p (bank (onBank v i f) j) = p (bank v j) := by
  by_cases hj : j = i
  · rw [hj, bank_onBank_same, h]
  · rw [bank_onBank_ne _ hj]

/-- A change of a vessel's record beside its mode, its fault and its BLIND flag. -/
theorem State.beside_onVessel {v : Fin 12} {f : VesselRec → VesselRec} (hm : ∀ r, (f r).mode = r.mode)
    (hf : ∀ r, (f r).fault = r.fault) (hb : ∀ r, (f r).blind = r.blind) : State.Beside (·.onVessel v f) := by
  have hmode : ∀ (s : State) (w : Fin 12), ((s.onVessel v f).vessel w).mode = (s.vessel w).mode := fun s =>
    bank_onBank_part (p := VesselRec.mode) hm s.vessels v
  have hfault : ∀ (s : State) (w : Fin 12), ((s.onVessel v f).vessel w).fault = (s.vessel w).fault := fun s =>
    bank_onBank_part (p := VesselRec.fault) hf s.vessels v
  have hblind : ∀ (s : State) (w : Fin 12), ((s.onVessel v f).vessel w).blind = (s.vessel w).blind := fun s =>
    bank_onBank_part (p := VesselRec.blind) hb s.vessels v
  have hphase : ∀ (s : State) (w : Fin 12), (s.onVessel v f).phaseCode w = s.phaseCode w := fun _ _ => rfl
  constructor <;> intros <;> try rfl
  unfold State.sourceState
  simp only [hmode, hfault, hblind, hphase]
  rfl

/-- A change of a steep's record beside its phase state. -/
theorem State.beside_onSteep {i : Fin 4} {f : Steep → Steep} (h : ∀ x, (f x).phase = x.phase) : State.Beside (·.onSteep i f) := by
  have hx : ∀ (s : State) (j : Fin 4), ((s.onSteep i f).steep j).phase = (s.steep j).phase := fun s =>
    bank_onBank_part (p := Steep.phase) h s.steeps i
  have hphase : ∀ (s : State) (w : Fin 12), (s.onSteep i f).phaseCode w = s.phaseCode w := fun s w => by
    unfold State.phaseCode
    simp only [hx]
    rfl
  constructor <;> intros <;> try rfl
  unfold State.sourceState
  simp only [hphase]
  rfl

/-- A change of a compartment's record beside its phase state. -/
theorem State.beside_onComp {c : Fin 6} {f : Comp → Comp} (h : ∀ x, (f x).phase = x.phase) : State.Beside (·.onComp c f) := by
  have hx : ∀ (s : State) (j : Fin 6), ((s.onComp c f).comp j).phase = (s.comp j).phase := fun s =>
    bank_onBank_part (p := Comp.phase) h s.comps c
  have hphase : ∀ (s : State) (w : Fin 12), (s.onComp c f).phaseCode w = s.phaseCode w := fun s w => by
    unfold State.phaseCode
    simp only [hx]
    rfl
  constructor <;> intros <;> try rfl
  unfold State.sourceState
  simp only [hphase]
  rfl

/-- A change of a kiln's record beside its phase state. -/
theorem State.beside_onKiln {k : Fin 2} {f : Kiln → Kiln} (h : ∀ x, (f x).phase = x.phase) : State.Beside (·.onKiln k f) := by
  have hx : ∀ (s : State) (j : Fin 2), ((s.onKiln k f).kiln j).phase = (s.kiln j).phase := fun s =>
    bank_onBank_part (p := Kiln.phase) h s.kilns k
  have hphase : ∀ (s : State) (w : Fin 12), (s.onKiln k f).phaseCode w = s.phaseCode w := fun s w => by
    unfold State.phaseCode
    simp only [hx]
    rfl
  constructor <;> intros <;> try rfl
  unfold State.sourceState
  simp only [hphase]
  rfl

/-- A change of a turner's record beside its state. -/
theorem State.beside_onTurner {t : Fin 2} {f : Turner → Turner} (h : ∀ x, (f x).state = x.state) : State.Beside (·.onTurner t f) := by
  have hx : ∀ (s : State) (j : Fin 2), ((s.onTurner t f).turner j).state = (s.turner j).state := fun s =>
    bank_onBank_part (p := Turner.state) h s.turners t
  constructor <;> intros <;> try rfl
  unfold State.sourceState
  simp only [hx]
  rfl

/-- A change of the transfer run beside the running transfer. -/
theorem State.beside_onTransfer {f : TransferRun → TransferRun} (h : ∀ x, (f x).running = x.running) :
    State.Beside (·.onTransfer f) := by
  constructor <;> intros <;> try rfl
  unfold State.sourceState
  simp only [State.onTransfer_transfer, h]
  rfl

/-! ## A request that makes the arbiter scan -/

/-- A request's handler that prompts a scan with nothing to start leaves the state as without it. -/
theorem State.requestArrives_scans {s t : State} {o : Originator} {r : Request} (h : s.takes o r = true) {cls code : Nat}
    {hd : Handler} {a : Answered} (hh : hd o r (s.received o) = (t.emit .scan, some a)) (ht : t.work = [])
    (hn : t.noScan = true) :
    (s.requestArrives cls code hd r).settle =
      t.formReply r.src.toNat r.seq.toNat cls code a.status a.detail a.result false := by
  rw [State.requestArrives_answers h hh, ← (State.beside_emit .scan).formReply]
  refine State.settle_emit_scan ((State.formReply_work ..).trans ht) ?_
  unfold State.noScan
  rw [State.formReply_transfer]
  exact hn

end Sys2Proof.Machine
end

section
/-! PROOFS. Steeps: levels, the timers of phases and weighings, and the requests that begin and end a batch in a steep
(R6, R18, R50 to R54, R57). -/

namespace Sys2Proof.Machine

-- One declaration after the other: side by side, their stacks are more than the check's bound on memory.
set_option Elab.async false

theorem State.onSteep_onSteep (s : State) (i : Fin 4) (f g : Steep → Steep) :
    (s.onSteep i f).onSteep i g = s.onSteep i fun x => g (f x) := by
  simp [State.onSteep, onBank]

theorem State.onSteep_congr {s : State} {i : Fin 4} {f g : Steep → Steep} (h : f (s.steep i) = g (s.steep i)) :
    s.onSteep i f = s.onSteep i g := by
  have h' : f s.steeps[i] = g s.steeps[i] := h
  simp only [State.onSteep, onBank, h']

theorem State.steep_onSteep_same (s : State) (i : Fin 4) (f : Steep → Steep) : (s.onSteep i f).steep i = f (s.steep i) :=
  bank_onBank_same ..

theorem State.steepSendArg_none {s : State} {i : Fin 4} {station : SteepCfg → Option Nat}
    (h : (s.steepCfg i).bind station = none) (code : Nat) (a : Int) : s.steepSendArg i station code a = s := by
  unfold State.steepSendArg
  rw [h]
  rfl

/-- The kiln guard and the peat guard read the committed tables and the kilns alone. -/
theorem State.burnerGuard_congr {s t : State} (ht : t.tables = s.tables) (hk : t.kilns = s.kilns) (st code : Nat) (a : Int) :
    t.burnerGuard st code a = s.burnerGuard st code a := by
  unfold State.burnerGuard State.kilnCfg State.kiln
  rw [ht, hk]

theorem State.peatShut_congr {s t : State} (ht : t.tables = s.tables) (hk : t.kilns = s.kilns) (st code : Nat) :
    t.peatShut st code = s.peatShut st code := by
  unfold State.peatShut State.kilnCfg State.kiln
  rw [ht, hk]

theorem onBank_self {α : Type} {n : Nat} {v : Vector α n} {i : Fin n} {f : α → α} (h : f (bank v i) = bank v i) :
    onBank v i f = v := by
  have h' : f v[i] = v[i] := h
  unfold onBank
  rw [h']
  exact Vector.set_getElem_self ..

theorem State.onSteep_self {s : State} {i : Fin 4} {f : Steep → Steep} (h : f (s.steep i) = s.steep i) : s.onSteep i f = s := by
  unfold State.onSteep
  rw [onBank_self h]

theorem State.phaseIndex_steep (s : State) (i : Fin 4) : s.phaseIndex (steepNo i) = (s.steep i).index := by
  unfold State.phaseIndex
  rw [vesselIs_steepNo]

theorem State.queued_steep (s : State) (st code : Nat) (a : Int) (o : Origin) (p : Purpose) (i : Fin 4) :
    (s.queued st code a o p).steep i = s.steep i := rfl
theorem State.queued_waiting (s : State) (st code : Nat) (a : Int) (o : Origin) (p : Purpose) :
    (s.queued st code a o p).filter.waiting = s.filter.waiting := rfl

/-- OVERRIDE passes the mode check of every vessel that is not OFF. -/
theorem State.roomFor_override_onVessel {s : State} {st code : Nat} (h : s.roomFor st code .override = true) {v : Fin 12}
    {f : VesselRec → VesselRec} (hf : (f (s.vessel v)).mode ≠ .off) : (s.onVessel v f).roomFor st code .override = true := by
  obtain ⟨h1, h2, h3, h4, h5, h6, h7, h8, h9⟩ := State.roomFor_iff.1 h
  refine State.roomFor_iff.2 ⟨h1, h2, h3, h4, ?_, h6, h7, h8, h9⟩
  unfold State.modeAllows at h5 ⊢
  rw [State.onVessel_tables]
  split
  · next w hw =>
    rw [hw] at h5
    by_cases hv : w = v
    · have hmode : ((s.onVessel v f).vessel w).mode = (f (s.vessel v)).mode := by
        rw [hv]
        exact congrArg VesselRec.mode (bank_onBank_same ..)
      rw [hmode]
      cases hm : (f (s.vessel v)).mode
      · exact absurd hm hf
      · rfl
      · rfl
      · rfl
    · rw [show (s.onVessel v f).vessel w = s.vessel w from bank_onBank_ne _ hv f]
      exact h5
  · rfl

/-! ## Levels (R51, R52) -/

namespace State.SameSurroundings

variable {a s : State}

theorem steepFull (h : a.SameSurroundings s) {i : Fin 4} : a.SameSurroundings (s.steepFull i) :=
  (h.sendTo.sendTo.onSteep).steepTo
theorem steepDrained (h : a.SameSurroundings s) {i : Fin 4} : a.SameSurroundings (s.steepDrained i) := h.sendTo.onSteep

theorem levelCheck (h : a.SameSurroundings s) {i : Fin 4} {x : Int} : a.SameSurroundings (s.levelCheck i x) := by
  unfold State.levelCheck
  split
  · refine ite h ?_
    split
    · exact h.steepFull.ite h
    · exact h.steepDrained.ite h
    · exact h
  · exact h

end State.SameSurroundings

/-- A transfer from another vessel reads no level of this one. -/
theorem State.runEmptyTest_of_other {s : State} {v : Fin 12} (h : ∀ r, s.transfer.running = some r → r.source ≠ v) (r : Role)
    (x : Int) : s.runEmptyTest v r x = s := by
  unfold State.runEmptyTest
  split
  · next t ht => exact if_neg fun hn => h t ht hn.1
  · rfl

theorem State.deliver_level {s : State} {n : Nat} {e : MpEntry} {x : MpValue} {i : Fin 4} (ho : e.owner = .vessel (steepNo i))
    (hr : e.role = .level) (hm : s.mpOf (.vessel (steepNo i)) .level = some n)
    (hrun : ∀ r, s.transfer.running = some r → r.source ≠ steepNo i) : s.deliver n e x = s.levelCheck i x.val := by
  have hlevel : s.deliverVessel (steepNo i) .level x.val = s.levelCheck i x.val := by
    unfold State.deliverVessel
    rw [vesselIs_steepNo]
    rfl
  unfold State.deliver
  rw [ho, hr, if_neg (by simp [hm])]
  dsimp only
  rw [hlevel]
  refine State.runEmptyTest_of_other ?_ _ _
  rw [((State.SameSurroundings.refl s).levelCheck).transfer]
  exact hrun

/-- What a level does in AUTO, by the phase state. -/
theorem State.levelCheck_auto {s : State} {i : Fin 4} {g : SteepCfg} (hg : s.steepCfg i = some g) (hm : s.steepMode i = .auto)
    (x : Int) : s.levelCheck i x = match (s.steep i).phase with
      | .filling => if (g.full : Int) ≤ x then s.steepFull i else s
      | .draining => if (s.steep i).drained = false ∧ x ≤ (g.empty : Int) then s.steepDrained i else s
      | _ => s := by
  unfold State.levelCheck
  rw [hg]
  dsimp only
  rw [if_neg (by simp [hm])] <;> rfl

/-- A state that a phase enters posts its notice, where it was another one. -/
theorem State.steepTo_ne {s : State} {i : Fin 4} {p : SteepState} (h : (s.steep i).phase ≠ p) :
    s.steepTo i p = (s.onSteep i fun x => { x with phase := p }).postPhase (steepNo i) (s.steep i).index := if_neg h

theorem State.phaseCode_steep (s : State) (i : Fin 4) : s.phaseCode (steepNo i) = (s.steep i).phase.code := by
  unfold State.phaseCode
  rw [vesselIs_steepNo]

/-- The full level makes the steep IMMERSED, behind the commands u of the end of FILLING. -/
theorem State.steepFull_of_offers {s u : State} {i : Fin 4} (hp : (s.steep i).phase = .filling)
    (hu : (s.steepSend i (fun c => some c.fill) cCLOSE).aerate i = u) (hs : u.steeps = s.steeps) :
    s.steepFull i = (u.onSteep i fun z => { z with
      wait := none, phaseTimer := (s.steep i).fields.map fun f => f.duration * 600, phase := .immersed }).post .phase .vessel
        (steepNo i).val 3 (s.steep i).index := by
  have hsi : u.steep i = s.steep i := by unfold State.steep; rw [hs]
  unfold State.steepFull
  rw [hu]
  dsimp only
  rw [State.steepTo_ne (by rw [State.steep_onSteep_same, hsi, hp]; decide), State.onSteep_onSteep, State.steep_onSteep_same, hsi]
  unfold State.postPhase State.postVessel
  rw [State.phaseCode_steep, State.steep_onSteep_same]
  rw [State.onSteep_congr (s := u) (g := fun z => { z with
      wait := none, phaseTimer := (s.steep i).fields.map fun f => f.duration * 600, phase := .immersed })]
  · rfl
  · rw [hsi]
    rfl

/-- Settles O22, by the phase state and the level. -/
theorem steepLevelsMoveThePhases : Obligations.SteepLevelsMoveThePhases := by
  intro s n e x i g ho hr hm hg hrun y closed timer immersed
  have hd := State.deliver_level (x := x) ho hr hm hrun
  refine ⟨fun hmode => ?_, fun hmode hp => ⟨fun hlt => ?_, fun hle hroom => ?_⟩, fun hmode hp hdr => ⟨fun hlt => ?_, fun hle hroom => ?_⟩⟩
  · rw [hd]
    unfold State.levelCheck
    rw [hg]
    exact if_pos hmode
  · have hp' : (s.steep i).phase = .filling := hp
    rw [hd, State.levelCheck_auto hg hmode, hp']
    exact if_neg (by omega)
  · have hp' : (s.steep i).phase = .filling := hp
    have hclose : s.steepSend i (fun c => some c.fill) cCLOSE = closed g.fill :=
      State.steepSend_room (by rw [hg]; rfl) hroom (State.peatShut_of_code (by decide) _) rfl
    have hfull : s.deliver n e x = s.steepFull i := by
      rw [hd, State.levelCheck_auto hg hmode, hp']
      exact if_pos hle
    refine ⟨fun ha => ?_, fun a f ha hf hne hlen => ?_⟩
    · have hair : (closed g.fill).aerate i = closed g.fill := State.steepSend_none (by
        rw [show (closed g.fill).steepCfg i = s.steepCfg i from rfl, hg]; exact ha) _
      rw [hfull, State.steepFull_of_offers (u := closed g.fill) hp' (by rw [hclose, hair]) rfl]
      rfl
    · intro c hroom' hpeat
      have hcode : dutyCode c = false ∧ cCLOSE ≠ c := by
        show dutyCode (if f.aeration then cRUN else cSTOP) = false ∧ cCLOSE ≠ if f.aeration then cRUN else cSTOP
        cases f.aeration <;> decide
      have hair : (closed g.fill).aerate i = (closed g.fill).queued a c (closed g.fill).noArg .sequencer (.vessel (steepNo i)) := by
        have hany : ((closed g.fill).steep i).fields.any (·.aeration) = f.aeration := by
          rw [show (closed g.fill).steep i = y from rfl, hf]
          rfl
        unfold State.aerate
        rw [hany]
        exact State.steepSend_room (by rw [show (closed g.fill).steepCfg i = s.steepCfg i from rfl, hg]; exact ha)
          (State.roomFor_queued hroom' (.inr hcode.2) hlen ..) hpeat hcode.1
      rw [hfull, State.steepFull_of_offers (u := (closed g.fill).queued a c (closed g.fill).noArg .sequencer (.vessel (steepNo i)))
        hp' (by rw [hclose, hair]) rfl]
      rfl
  · have hp' : (s.steep i).phase = .draining := hp
    rw [hd, State.levelCheck_auto hg hmode, hp']
    exact if_neg (by omega)
  · have hp' : (s.steep i).phase = .draining := hp
    rw [hd, State.levelCheck_auto hg hmode, hp']
    refine (if_pos ⟨hdr, hle⟩).trans ?_
    unfold State.steepDrained
    rw [State.steepSend_room (st := g.drain) (by rw [hg]; rfl) hroom (State.peatShut_of_code (by decide) _) rfl]
    rfl

/-! ## The phase timer (R50 to R53) -/

/-- A steep of state y that enters phase state p, with its timers. -/
def State.steepEnters (y : State) (i : Fin 4) (p : SteepState) (t : Timer) (z : Option (WaitFor × Nat)) : State :=
  let y1 := y.onSteep i fun x => { x with phase := p, phaseTimer := t, wait := z }
  if (y.steep i).phase = p then y1 else y1.post .phase .vessel (steepNo i).val p.code (y.steep i).index

theorem State.steepTo_onSteep (y : State) (i : Fin 4) (p : SteepState) {f : Steep → Steep} {t : Timer}
    {z : Option (WaitFor × Nat)} (hf : f (y.steep i) = { y.steep i with phaseTimer := t, wait := z }) :
    (y.onSteep i f).steepTo i p = y.steepEnters i p t z := by
  have hcongr : y.onSteep i f = y.onSteep i fun x => { x with phaseTimer := t, wait := z } := State.onSteep_congr hf
  unfold State.steepTo State.steepEnters
  rw [hcongr, State.steep_onSteep_same, State.onSteep_onSteep]
  dsimp only
  by_cases h : (y.steep i).phase = p
  · rw [if_pos h, if_pos h]
    refine State.onSteep_congr ?_
    rw [← h]
  · rw [if_neg h, if_neg h]
    unfold State.postPhase State.postVessel
    rw [State.phaseCode_steep, State.steep_onSteep_same]

theorem State.SameSurroundings.steepEnters {a s : State} (h : a.SameSurroundings s) {i : Fin 4} {p : SteepState} {t : Timer}
    {z : Option (WaitFor × Nat)} : a.SameSurroundings (s.steepEnters i p t z) := h.onSteep.ite h.onSteep.post

theorem State.steepEnters_work (y : State) (i : Fin 4) (p : SteepState) (t : Timer) (z : Option (WaitFor × Nat)) :
    (y.steepEnters i p t z).work = y.work := by
  unfold State.steepEnters
  dsimp only
  split
  · rfl
  · exact State.post_work ..

theorem State.steepEnters_steep (y : State) (i : Fin 4) (p : SteepState) (t : Timer) (z : Option (WaitFor × Nat)) :
    (y.steepEnters i p t z).steep i = { y.steep i with phase := p, phaseTimer := t, wait := z } := by
  unfold State.steepEnters
  dsimp only
  split
  · exact State.steep_onSteep_same ..
  · show bank (State.post ..).steeps i = _
    rw [State.post_steeps]
    exact State.steep_onSteep_same ..

theorem State.usableRole_congr {s t : State} (ht : t.tables = s.tables) (hi : t.intake = s.intake) (o : Owner) (r : Role) :
    t.usableRole o r = s.usableRole o r := by
  unfold State.usableRole State.mpOf State.mpsOf State.usableOf State.live
  rw [ht, hi]

/-- A level that is not there yet leaves a phase at its start. -/
theorem State.levelNow_waits {s : State} {i : Fin 4} {g : SteepCfg} (hg : s.steepCfg i = some g)
    (h : ∀ x, s.usableRole (.vessel (steepNo i)) .level = some x →
      ((s.steep i).phase = .filling ∧ x < g.full) ∨ ((s.steep i).phase = .draining ∧ g.empty < x)) : s.levelNow i = s := by
  unfold State.levelNow
  split
  · next x hx =>
    unfold State.levelCheck
    rw [hg]
    dsimp only
    by_cases hm : s.steepMode i = .auto
    · rw [if_neg (by simp [hm])]
      rcases h x hx with ⟨hp, hlt⟩ | ⟨hp, hlt⟩
      · rw [hp]
        exact if_neg (by omega)
      · rw [hp]
        exact if_neg (fun hn => by omega)
    · exact if_pos hm
  · rfl

/-- What the fan is told at the start of a phase without air: STOP, unless CO2 holds it. -/
theorem State.fanStop_eq {s : State} {i : Fin 4} {g : SteepCfg} (hg : s.steepCfg i = some g)
    (h : (s.steep i).co2Hold = true ∨ s.roomFor g.fan cSTOP .sequencer = true) :
    s.fanStop i = if (s.steep i).co2Hold = true then s else
      s.queued g.fan cSTOP s.noArg .sequencer (.vessel (steepNo i)) := by
  unfold State.fanStop
  by_cases hh : (s.steep i).co2Hold = true
  · rw [if_pos hh, if_pos hh]
  · rw [if_neg hh, if_neg hh]
    exact State.steepSend_room (by rw [hg]; rfl) (h.resolve_left hh) (State.peatShut_of_code (by decide) _) rfl

/-- The phase timer's expiry starts the next phase on the state u that the immersion's end leaves. -/
theorem State.steepPhaseExpires_starts {s u : State} {i : Fin 4} {f : SteepPhase} (hx : (s.steep i).phaseTimer = some 0)
    (hr : s.phaseTimerRuns i = true) (hf : (s.steepPhases i)[(s.steep i).index + 1]? = some f)
    (hu : ((s.steep i).phase = .resting ∧ (s.steep i).fields.any (·.weigh) = false ∧ u = s) ∨
      ((s.steep i).phase = .draining ∧ u = s) ∨
      ((s.steep i).phase = .immersed ∧ (s.steep i).fields.any (·.aeration) = false ∧ u = s) ∨
      ((s.steep i).phase = .immersed ∧ (s.steep i).fields.any (·.aeration) = true ∧
        (s.onSteep i fun y => { y with phaseTimer := none }).steepSend i (·.aerate) cSTOP =
          (u.onSteep i fun y => { y with phaseTimer := none }) ∧ u.steeps = s.steeps ∧ u.tables = s.tables ∧ u.batch = s.batch)) :
    s.steepPhaseExpires i = u.startSteepPhase i ((s.steep i).index + 1) f := by
  have hends : ∀ t : State, t.steeps = s.steeps → t.tables = s.tables → t.batch = s.batch →
      (t.onSteep i fun y => { y with phaseTimer := none }).steepPhaseEnds i =
        t.startSteepPhase i ((s.steep i).index + 1) f := fun t h1 h2 h3 => by
    have hphases : (t.onSteep i fun y => { y with phaseTimer := none }).steepPhases i = s.steepPhases i := by
      unfold State.steepPhases State.steepProg State.batchAt
      rw [State.onSteep_batch, State.onSteep_tables, h2, h3]
    have hindex : ((t.onSteep i fun y => { y with phaseTimer := none }).steep i).index = (s.steep i).index := by
      rw [State.steep_onSteep_same]
      unfold State.steep
      rw [h1]
    unfold State.steepPhaseEnds
    dsimp only
    rw [hphases, hindex, hf]
    unfold State.startSteepPhase
    dsimp only
    rw [State.onSteep_onSteep t]
  unfold State.steepPhaseExpires
  dsimp only
  rw [if_pos ⟨hx, hr⟩]
  rcases hu with ⟨hp, ha, rfl⟩ | ⟨hp, rfl⟩ | ⟨hp, ha, rfl⟩ | ⟨hp, ha, hsend, h1, h2, h3⟩
  · rw [hp]
    dsimp only
    rw [ha, if_neg Bool.false_ne_true]
    exact hends _ rfl rfl rfl
  · rw [hp]
    exact hends _ rfl rfl rfl
  · rw [hp]
    dsimp only
    rw [ha, if_neg Bool.false_ne_true]
    exact hends _ rfl rfl rfl
  · rw [hp]
    dsimp only
    rw [ha, if_pos rfl, hsend]
    exact hends _ h1 h2 h3

theorem State.SameSurroundings.queued {a s : State} (h : a.SameSurroundings s) {st code : Nat} {x : Int} {o : Origin}
    {p : Purpose} : a.SameSurroundings (s.queued st code x o p) := h.trans (Eq.refl _)

theorem State.SameSurroundings.steepWide {a s : State} (h : a.SameSurroundings s) (i : Fin 4) : s.steepWide i = a.steepWide i := by
  unfold State.steepWide State.steepProg State.batchAt
  rw [h.tables, h.batch]

theorem State.SameSurroundings.steepCfg {a s : State} (h : a.SameSurroundings s) (i : Fin 4) : s.steepCfg i = a.steepCfg i := by
  unfold State.steepCfg
  rw [h.tables]

/-- A wait that is loaded as a phase state is entered, with a level that is not there yet. -/
theorem State.enters_and_waits {y : State} {i : Fin 4} {g : SteepCfg} (hg : y.steepCfg i = some g) (p : SteepState)
    (w : WaitFor) (n : Nat)
    (h : ∀ x, y.usableRole (.vessel (steepNo i)) .level = some x →
      (p = .filling ∧ x < g.full) ∨ (p = .draining ∧ g.empty < x)) :
    ((y.loadWait i w n).steepTo i p).levelNow i = y.steepEnters i p (y.steep i).phaseTimer (some (w, n)) := by
  have hs : y.SameSurroundings (y.steepEnters i p (y.steep i).phaseTimer (some (w, n))) := (State.SameSurroundings.refl y).steepEnters
  unfold State.loadWait
  rw [State.steepTo_onSteep y i p (t := (y.steep i).phaseTimer) (z := some (w, n)) rfl]
  refine State.levelNow_waits (g := g) ((hs.steepCfg i).trans hg) fun x hx => ?_
  rw [State.usableRole_congr hs.tables hs.intake] at hx
  rw [State.steepEnters_steep]
  exact h x hx

/-- A WET phase's start behind the setting of its water. -/
theorem State.startFill_eq {b o : State} {i : Fin 4} {g : SteepCfg} {w : SteepWide} (hg : b.steepCfg i = some g)
    (hw : b.steepWide i = some w) (ho : (((b.steepSend i (fun c => some c.drain) cCLOSE).steepSend i (fun c => some c.fill) cOPEN
      ).waterSet i) = o) (hs : b.SameSurroundings o) (hsteep : o.steep i = b.steep i)
    (hstill : (b.steep i).co2Hold = true ∨ o.roomFor g.fan cSTOP .sequencer = true)
    (hlevel : ∀ x, b.usableRole (.vessel (steepNo i)) .level = some x → x < g.full) :
    b.startFill i = (if (b.steep i).co2Hold = true then o else
      o.queued g.fan cSTOP o.noArg .sequencer (.vessel (steepNo i))).steepEnters i .filling (b.steep i).phaseTimer
        (some (.fill, w.fillTimeout * 600)) := by
  have hfan := State.fanStop_eq (s := o) ((hs.steepCfg i).trans hg) (by rw [hsteep]; exact hstill)
  rw [hsteep] at hfan
  unfold State.startFill
  rw [ho, hfan]
  dsimp only
  generalize hy : (if (b.steep i).co2Hold = true then o else
    o.queued g.fan cSTOP o.noArg .sequencer (.vessel (steepNo i))) = y
  have hys : b.SameSurroundings y ∧ y.steep i = b.steep i := by
    rw [← hy]
    split
    · exact ⟨hs, hsteep⟩
    · exact ⟨hs.queued, hsteep⟩
  rw [hw, State.enters_and_waits ((hys.1.steepCfg i).trans hg), hys.2]
  · rfl
  · intro x hx
    rw [State.usableRole_congr hys.1.tables hys.1.intake] at hx
    exact .inl ⟨rfl, hlevel x hx⟩

/-- A DRAIN phase's start. -/
theorem State.startDrain_eq {b o : State} {i : Fin 4} {g : SteepCfg} {w : SteepWide} (hg : b.steepCfg i = some g)
    (hw : b.steepWide i = some w) (ho : b.steepSend i (fun c => some c.drain) cOPEN = o) (hs : b.SameSurroundings o)
    (hsteep : o.steep i = b.steep i)
    (hstill : (b.steep i).co2Hold = true ∨ o.roomFor g.fan cSTOP .sequencer = true)
    (hlevel : ∀ x, b.usableRole (.vessel (steepNo i)) .level = some x → g.empty < x) :
    b.startDrain i = (if (b.steep i).co2Hold = true then o else
      o.queued g.fan cSTOP o.noArg .sequencer (.vessel (steepNo i))).steepEnters i .draining (b.steep i).phaseTimer
        (some (.drain, w.drainTimeout * 600)) := by
  have hfan := State.fanStop_eq (s := o) ((hs.steepCfg i).trans hg) (by rw [hsteep]; exact hstill)
  rw [hsteep] at hfan
  unfold State.startDrain
  rw [ho, hfan]
  dsimp only
  generalize hy : (if (b.steep i).co2Hold = true then o else
    o.queued g.fan cSTOP o.noArg .sequencer (.vessel (steepNo i))) = y
  have hys : b.SameSurroundings y ∧ y.steep i = b.steep i := by
    rw [← hy]
    split
    · exact ⟨hs, hsteep⟩
    · exact ⟨hs.queued, hsteep⟩
  rw [hw, State.enters_and_waits ((hys.1.steepCfg i).trans hg), hys.2]
  · rfl
  · intro x hx
    rw [State.usableRole_congr hys.1.tables hys.1.intake] at hx
    exact .inr ⟨rfl, hlevel x hx⟩

/-- A REST phase's start behind its fan commands. -/
theorem State.startRest_eq {b o : State} {i : Fin 4} {f : SteepPhase} (ho : b.fanRun i = o) (hf : (o.steep i).fields = some f) :
    b.startRest i = o.steepEnters i .resting (some (f.duration * 600)) (o.steep i).wait := by
  unfold State.startRest
  rw [ho]
  have ht : (o.steep i).durationTimer = some (f.duration * 600) := by
    unfold Steep.durationTimer
    rw [hf]
    rfl
  exact State.steepTo_onSteep o i .resting (by rw [ht])

/-- The phase timer's expiry where the next phase of the program has its start. -/
theorem State.steepStarts {s u t : State} {i : Fin 4} {f : SteepPhase} (hw : t.work = [])
    (hx : s.steepPhaseExpires i = u.startSteepPhase i ((s.steep i).index + 1) f)
    (ht : u.startSteepPhase i ((s.steep i).index + 1) f = t) : exec (.steepPhaseTimerExpiry i) s = .next t := by
  show Host.Outcome.next (s.steepPhaseExpires i).settle = _
  rw [hx, ht, State.settle_of_idle hw]

theorem State.weighing_starts {s : State} {i : Fin 4} {w : SteepWide} (hp : (s.steep i).phase = .resting)
    (hw : s.steepWide i = some w) :
    ((s.onSteep i fun y => { y with phaseTimer := none }).startWeighing i).steepTo i .weighing =
      (s.onSteep i fun x => { x with
        phase := .weighing, phaseTimer := none, wait := some (.settle, w.settle * 10) }).postVessel .phase (steepNo i) 6
          (s.steep i).index := by
  unfold State.startWeighing State.loadWait
  rw [show ((s.onSteep i fun y => { y with phaseTimer := none }).steepWide i) = s.steepWide i from rfl, hw]
  rw [State.onSteep_onSteep, State.onSteep_onSteep,
    State.steepTo_onSteep s i .weighing (t := none) (z := some (.settle, w.settle * 10)) rfl]
  unfold State.steepEnters
  dsimp only
  rw [if_neg (by rw [hp]; decide)]
  rfl

theorem State.steepCfg_onSteep (s : State) (i j : Fin 4) (f : Steep → Steep) : (s.onSteep i f).steepCfg j = s.steepCfg j := rfl

/-- Settles O21: the weighing, the start of each kind of phase, and the waits that fault the steep. -/
theorem steepTimersEndTheirWaits : Obligations.SteepTimersEndTheirWaits := by
  refine ⟨fun s i hw hm hb => ⟨fun f w hp hx hf hweigh hwide => ?_, fun hwait => ?_⟩, ?_, ?_⟩
  · show Host.Outcome.next (s.steepPhaseExpires i).settle = _
    unfold State.steepPhaseExpires
    dsimp only
    rw [if_pos ⟨hx, by simp [State.phaseTimerRuns, hm, hb]⟩, hp, hf]
    dsimp only [Option.any_some]
    rw [if_pos hweigh, State.weighing_starts hp hwide]
    exact congrArg Host.Outcome.next (State.settle_of_idle ((State.post_work ..).trans hw))
  · show Host.Outcome.next (s.steepSettled i).settle = _
    unfold State.steepSettled
    rw [if_pos (by simp [State.waitDue, State.waitRuns, hwait, hm, hb])]
    exact congrArg Host.Outcome.next (State.settle_of_idle hw)
  · intro s u i g w f hw hm hb hx hg hwide n v old airs room told set enters hnext hu hlen b still stills
    have hruns : s.phaseTimerRuns i = true := by simp [State.phaseTimerRuns, hm, hb]
    have hairs : (s.steep i).fields.any (·.aeration) = true ↔ airs := by
      show _ ↔ ∃ p, (s.steep i).fields = some p ∧ p.aeration = true
      cases (s.steep i).fields <;> simp
    have hus : s.SameSurroundings u ∧ u.steeps = s.steeps ∧ u.kilns = s.kilns ∧ u.work = [] ∧ s.steepPhaseExpires i = u.startSteepPhase i n f := by
      rcases hu with ⟨rfl, ⟨hp, hweigh⟩ | hp | ⟨hp, ha⟩⟩ | ⟨hp, ha, a, hga, hroom, rfl⟩
      · refine ⟨.refl _, rfl, rfl, hw, State.steepPhaseExpires_starts hx hruns hnext (.inl ⟨hp, ?_, rfl⟩)⟩
        cases hf : (u.steep i).fields with
        | none => rfl
        | some p => exact hweigh p hf
      · exact ⟨.refl _, rfl, rfl, hw, State.steepPhaseExpires_starts hx hruns hnext (.inr (.inl ⟨hp, rfl⟩))⟩
      · refine ⟨.refl _, rfl, rfl, hw, State.steepPhaseExpires_starts hx hruns hnext (.inr (.inr ?_))⟩
        by_cases h : (u.steep i).fields.any (·.aeration) = true
        · have hnone : g.aerate = none := ha.resolve_right fun hn => hn (hairs.1 h)
          exact .inr ⟨hp, h, State.steepSend_none (by rw [State.steepCfg_onSteep, hg]; exact hnone) _,
            rfl, rfl, rfl⟩
        · exact .inl ⟨hp, Bool.eq_false_iff.2 h, rfl⟩
      · refine ⟨(State.SameSurroundings.refl s).queued, rfl, rfl, hw, State.steepPhaseExpires_starts hx hruns hnext
          (.inr (.inr (.inr ⟨hp, hairs.2 ha, ?_, rfl, rfl, rfl⟩)))⟩
        exact State.steepSend_room (s := s.onSteep i _) (by rw [State.steepCfg_onSteep, hg]; exact hga)
          hroom (State.peatShut_of_code (by decide) _) rfl
    obtain ⟨hsurr, hsteeps, hkilns, huw, hstarts⟩ := hus
    have hcfg : b.steepCfg i = some g := (hsurr.steepCfg i).trans hg
    have hbwide : b.steepWide i = some w := (hsurr.steepWide i).trans hwide
    have husteep : u.steep i = s.steep i := by unfold State.steep; rw [hsteeps]
    have hbsteep : b.steep i =
        { s.steep i with index := n, fields := some f, phaseTimer := none, wait := none, drained := false } := by
      rw [← husteep]
      exact State.steep_onSteep_same ..
    have hbuse : b.usableRole (.vessel v) .level = s.usableRole (.vessel v) .level :=
      State.usableRole_congr hsurr.tables hsurr.intake ..
    have hold : (b.steep i).co2Hold = (s.steep i).co2Hold := by rw [hbsteep]
    have hlevel : ∀ y : State, y.steep i = b.steep i → ∀ p code t z, p.code = code →
        y.steepEnters i p t z = enters y p code t z := fun y hy p code t z hc => by
      unfold State.steepEnters
      rw [hy, hbsteep, ← hc]
    have hstill : ∀ y : State, y.steep i = b.steep i → (still y).steep i = b.steep i ∧ (y.work = [] → (still y).work = []) :=
      fun y hy => by
        show (if _ then y else told y g.fan cSTOP).steep i = _ ∧ (_ → (if _ then y else told y g.fan cSTOP).work = _)
        split
        · exact ⟨hy, id⟩
        · exact ⟨hy, id⟩
    have hfin : ∀ y : State, y.steep i = b.steep i → y.work = [] → ∀ p code t z, p.code = code →
        u.startSteepPhase i n f = y.steepEnters i p t z → exec (.steepPhaseTimerExpiry i) s = .next (enters y p code t z) :=
      fun y hy hyw p code t z hc hstart => by
        rw [← hlevel y hy p code t z hc]
        exact State.steepStarts ((State.steepEnters_work ..).trans hyw) hstarts hstart
    have htimer : (b.steep i).phaseTimer = none := by rw [hbsteep]
    clear_value enters
    refine ⟨fun hk hst hdrain hfill hlow => ?_, fun hk hst hdrain hhigh => ?_, fun hk hst => ?_⟩
    · intro o filled
      have hkind : u.startSteepPhase i n f = b.startFill i := by
        unfold State.startSteepPhase
        rw [hk]
      have h1 : b.steepSend i (fun c => some c.drain) cCLOSE = told b g.drain cCLOSE :=
        State.steepSend_room (by rw [hcfg]; rfl) hdrain (State.peatShut_of_code (by decide) _) rfl
      have h2 : (told b g.drain cCLOSE).steepSend i (fun c => some c.fill) cOPEN = o :=
        State.steepSend_room (by rw [show (told b g.drain cCLOSE).steepCfg i = b.steepCfg i from rfl, hcfg]; rfl)
          (State.roomFor_queued (s := b) hfill (.inr (by decide)) (Nat.lt_of_le_of_lt hlen (by decide)) ..)
          (State.peatShut_of_code (by decide) _) rfl
      have hlen1 : (told b g.drain cCLOSE).filter.queue.length = u.filter.queue.length + 1 := State.queued_length ..
      have hlen2 : o.filter.queue.length = u.filter.queue.length + 1 + 1 := (State.queued_length ..).trans (by rw [hlen1])
      have hroom : ∀ st c, room u st c → cCLOSE ≠ c → cOPEN ≠ c → o.roomFor st c .sequencer = true := fun st c hr hc ho =>
        State.roomFor_queued (State.roomFor_queued (s := b) hr (.inr hc) (Nat.lt_of_le_of_lt hlen (by decide)) ..) (.inr ho)
          (by rw [hlen1]; omega) ..
      have hosurr : b.SameSurroundings o := (State.SameSurroundings.refl b).queued.queued
      have hlow' : ∀ x, b.usableRole (.vessel v) .level = some x → x < g.full := by rw [hbuse]; exact hlow
      have hstarts' : ∀ y, o.waterSet i = y → b.SameSurroundings y → y.steep i = b.steep i → y.work = [] →
          ((b.steep i).co2Hold = true ∨ y.roomFor g.fan cSTOP .sequencer = true) → filled y := fun y hy hs hsteep hyw hroomy => by
        refine hfin (still y) (hstill y hsteep).1 ((hstill y hsteep).2 hyw) .filling 2 none _ rfl ?_
        rw [hkind, State.startFill_eq hcfg hbwide (by rw [h1, h2]; exact hy) hs hsteep hroomy hlow', htimer, hold]
      have hfields : (o.steep i).fields = some f := congrArg Steep.fields hbsteep
      have hocfg : o.steepCfg i = some g := (hosurr.steepCfg i).trans hcfg
      refine ⟨fun hwater => ?_, fun st hwater hset hguard => ?_⟩
      · refine hstarts' o ?_ hosurr rfl huw (hst.imp (by rw [hold]; exact id) fun h => hroom _ _ h (by decide) (by decide))
        unfold State.waterSet
        rw [hfields]
        exact State.steepSendArg_none (by rw [hocfg]; exact hwater) _ _
      · refine hstarts' (set o st f.water) ?_ hosurr.queued rfl huw (hst.imp (by rw [hold]; exact id) fun h => ?_)
        · unfold State.waterSet
          rw [hfields]
          refine State.steepSendArg_room (by rw [hocfg]; exact hwater) (hroom _ _ hset (by decide) (by decide)) (by decide) ?_
          rw [State.burnerGuard_congr (s := s) (hosurr.tables.trans hsurr.tables) hkilns]
          exact hguard
        · exact State.roomFor_queued (hroom _ _ h (by decide) (by decide)) (.inr (by decide)) (by rw [hlen2]; omega) ..
    · have hkind : u.startSteepPhase i n f = b.startDrain i := by
        unfold State.startSteepPhase
        rw [hk]
      have h1 : b.steepSend i (fun c => some c.drain) cOPEN = told b g.drain cOPEN :=
        State.steepSend_room (by rw [hcfg]; rfl) hdrain (State.peatShut_of_code (by decide) _) rfl
      refine hfin (still (told b g.drain cOPEN)) (hstill (told b g.drain cOPEN) rfl).1
        ((hstill (told b g.drain cOPEN) rfl).2 huw) .draining 4 none _ rfl ?_
      rw [hkind, State.startDrain_eq hcfg hbwide h1 (State.SameSurroundings.refl b).queued rfl
        (hst.imp (by rw [hold]; exact id) fun h => State.roomFor_queued (s := b) h (.inr (by decide))
          (Nat.lt_of_le_of_lt hlen (by decide)) ..) (by rw [hbuse]; exact hhigh), htimer, hold]
    · have hkind : u.startSteepPhase i n f = b.startRest i := by
        unfold State.startSteepPhase
        rw [hk]
      have hfields : (b.steep i).fields = some f := congrArg Steep.fields hbsteep
      have hwait : (b.steep i).wait = none := by rw [hbsteep]
      by_cases hh : (s.steep i).co2Hold = true
      · have hrun : b.fanRun i = b := if_pos (hold.trans hh)
        rw [if_pos hh]
        refine hfin b rfl huw .resting 5 (some (f.duration * 600)) none rfl ?_
        rw [hkind, State.startRest_eq hrun hfields, hwait]
      · obtain ⟨hr, hset, hpeat, hguard⟩ := hst.resolve_left hh
        have h1 : b.steepSend i (fun c => some c.fan) cRUN = told b g.fan cRUN :=
          State.steepSend_room (by rw [hcfg]; rfl) hr
            ((State.peatShut_congr (t := b) hsurr.tables hkilns ..).trans hpeat) rfl
        have h2 : (told b g.fan cRUN).steepSendArg i (fun c => some c.fan) cSETPOINT f.fan = set (told b g.fan cRUN) g.fan f.fan :=
          State.steepSendArg_room (by rw [show (told b g.fan cRUN).steepCfg i = b.steepCfg i from rfl, hcfg]; rfl)
            (State.roomFor_queued (s := b) hset (.inr (by decide)) (Nat.lt_of_le_of_lt hlen (by decide)) ..) (by decide)
            ((State.burnerGuard_congr (t := told b g.fan cRUN) hsurr.tables hkilns ..).trans hguard)
        have hrun : b.fanRun i = set (told b g.fan cRUN) g.fan f.fan := by
          unfold State.fanRun
          rw [if_neg (by rw [hold]; exact hh), hfields]
          dsimp only
          rw [h1, h2]
        rw [if_neg hh]
        refine hfin (set (told b g.fan cRUN) g.fan f.fan) rfl huw .resting 5 (some (f.duration * 600)) none rfl ?_
        rw [hkind, State.startRest_eq hrun hfields]
        exact congrArg _ hwait
  · intro s i hw hm hf hwait held
    have hfault : ∀ c t, (held c).steepCloseOpen i = t → (t.steep i).wait = none → t.filter.waiting = [] →
        (s.onSteep i fun x => { x with wait := none }).vesselFault (steepNo i) c = t := fun c t ht hsw htw => by
      have hauto : (s.onSteep i fun x => { x with wait := none }).phaseIndex (steepNo i) = (s.steep i).index := by
        rw [State.phaseIndex_steep, State.steep_onSteep_same]
      have hix : (steepNo i).val = i.val := rfl
      rw [State.vesselFault_auto (s := s.onSteep i _) hm hf, hauto, hix]
      unfold State.leaveAuto
      rw [vesselIs_steepNo]
      dsimp only
      rw [show ∀ x, x = held c → x.steepCloseOpen i = t from fun x hx => hx ▸ ht]
      · rw [State.onSteep_self (by rw [← hsw]), State.discardWaiting_empty htw]
      · rfl
    have hsteep : ∀ c, (held c).steep i = { s.steep i with wait := none } := fun c => by
      simp [held, State.steep]
    have hwork : ∀ c, (held c).work = [] := fun c => by simp [held, hw]
    have hfilter : ∀ c, (held c).filter = s.filter := fun c => by simp [held]
    have hcfg : ∀ c, (held c).steepCfg i = s.steepCfg i := fun c => by simp [held, State.steepCfg, State.post_tables]
    have hroom : ∀ c st code, s.roomFor st code .override = true → (held c).roomFor st code .override = true := fun c st code h => by
      show (State.post ..).roomFor st code .override = true
      rw [State.roomFor_post, State.roomFor_post]
      exact State.roomFor_override_onVessel (s := s.onSteep i _) h (fun hn => nomatch hn)
    have hdue : ∀ w c t, (s.steep i).wait = some (w, 0) → w ≠ .settle → (held c).steepCloseOpen i = t →
        (t.steep i).wait = none → t.filter.waiting = [] → t.work = [] → (s.steepTimeout i w c).settle = t :=
      fun w c t hx hs ht hsw htw htwork => by
        unfold State.steepTimeout
        rw [if_pos (by simp [State.waitDue, State.waitRuns, hx, hm, hs]), hfault c t ht hsw htw]
        exact State.settle_of_idle htwork
    clear_value held
    refine ⟨fun ⟨hp, hx⟩ => ?_, fun g hg => ⟨fun ⟨hp, hx, hr⟩ => ?_, fun ⟨hp, hd, hx, hr⟩ => ?_⟩⟩
    · refine congrArg Host.Outcome.next (hdue .window .weighTimeout (held .weighTimeout) hx (by decide) ?_ (by rw [hsteep])
        (by rw [hfilter, hwait]) (hwork _))
      unfold State.steepCloseOpen
      dsimp only
      rw [hsteep]
      split
      · rw [if_neg (by rw [hp]; decide), if_neg (by rw [hp]; simp)]
      · rfl
    · refine congrArg Host.Outcome.next (hdue .fill .fillTimeout _ hx (by decide) ?_ (by rw [State.queued_steep, hsteep])
        (by rw [State.queued_waiting, hfilter, hwait]) (hwork _))
      unfold State.steepCloseOpen
      dsimp only
      rw [hsteep, hcfg, hg]
      dsimp only
      rw [if_pos hp, State.send_room (hroom _ _ _ hr) (by decide) rfl (by decide), State.noArg_congr (hfilter _)]
    · refine congrArg Host.Outcome.next (hdue .drain .drainTimeout _ hx (by decide) ?_ (by rw [State.queued_steep, hsteep])
        (by rw [State.queued_waiting, hfilter, hwait]) (hwork _))
      unfold State.steepCloseOpen
      dsimp only
      rw [hsteep, hcfg, hg]
      dsimp only
      rw [if_neg (by rw [hp]; decide), if_pos (by simp [hp, hd]), State.send_room (hroom _ _ _ hr) (by decide) rfl (by decide),
        State.noArg_congr (hfilter _)]

end Sys2Proof.Machine
end

section
/-! PROOFS. The requests that begin and end a batch in a steep (R6, R18, R57). -/

namespace Sys2Proof.Machine

-- One declaration after the other: side by side, their stacks are more than the check's bound on memory.
set_option Elab.async false

/-- A request for a batch record that exists, from the plant controller. -/
theorem onBatchId_eq {s : State} {r : Request} {f : Nat → Batch → State × Option Answered} {n : Nat} {b : Batch}
    (hlen : r.args.length = 2) (hb : s.batchOf (ofBytes r.args) = some (n, b)) : onBatchId .plant r s f = f n b := by
  unfold onBatchId
  rw [if_neg (by omega), if_neg (by decide), hb]

theorem Batch.steepOf_eq {b : Batch} {i : Fin 4} (h : b.vessel = i.val) : b.steepOf = some i := by
  have hi : b.vessel < 4 := by rw [h]; exact i.isLt
  unfold Batch.steepOf
  rw [dif_pos hi]
  exact congrArg some (Fin.ext h)

/-- An entry in an event of its own changes the excise unit alone. -/
theorem State.writeEvent_room {s : State} (e : Entry) (b : Bool) (hf : s.excise.storeFault = false)
    (hn : s.excise.now.next < max32) : ∃ g, (s.writeEntry e).closeEvent b = s.onExcise g := by
  obtain ⟨g, hg, hgf⟩ : ∃ g, s.writeEntry e = s.onExcise g ∧ (g s.excise).storeFault = false :=
    ⟨_, State.writeEntry_room e hf hn, hf⟩
  rw [hg, State.closeEvent_room (s := s.onExcise g) hgf]
  exact ⟨fun e => { g e with jobs := (g e).jobs ++ [{ entries := (g e).fresh, counters := (g e).now, reply := b }], fresh := [] }, rfl⟩

/-- An EMPTY steep out of AUTO that is handed its batch waits in IDLE. -/
theorem State.steepHandover_idle {s : State} {i : Fin 4} (hm : s.steepMode i ≠ .auto) (hp : (s.steep i).phase = .empty) :
    s.steepHandover i = (s.onSteep i fun x => { x with phase := .idle }).postVessel .phase (steepNo i) 1 (s.steep i).index := by
  unfold State.steepHandover
  rw [if_neg hm, State.steepTo_ne (by rw [hp]; decide)]
  unfold State.postPhase
  rw [State.phaseCode_steep, State.steep_onSteep_same]
  rfl

/-- Settles O46: the request passes its checks, and the EMPTY steep is handed the batch out of AUTO. -/
theorem startSteepWeighsTheBatchIn : Obligations.StartSteepWeighsTheBatchIn := by
  intro s r n b i kg h hlen hb hv hst hmode hphase hkg hlo hhi ha hn I D e
  have hw := (State.takes_iff.1 h).1
  have hoff : s.steepMode i ≠ .off := by rcases hmode with hm | hm <;> rw [hm] <;> decide
  have hauto : s.steepMode i ≠ .auto := by rcases hmode with hm | hm <;> rw [hm] <;> decide
  obtain ⟨g, hg⟩ := State.writeEvent_room (s := s.received .plant) e false (Excise.storeFault_of_avail ha) hn
  let a : Account := Account.intakeOf kg b.m0
  have hentry : intakeEntry b a = e := by
    show ({ number := 0, kind := kINTAKE, vessel := b.vessel, batch := b.id, quantity := a.intake, computed := a.dry } : Entry) = _
    rw [hv]
    rfl
  refine congrArg Host.Outcome.next (State.requestArrives_settles h (a := .of .ok) ?_ ?_)
  · unfold batchStartSteep
    rw [onBatchId_eq (s := s.received .plant) hlen hb, Batch.steepOf_eq hv]
    dsimp only
    rw [if_neg (fun hn => hn.elim (· hst) hoff), show (s.received .plant).usableRole (.vessel (steepNo i)) .grainMass = _ from hkg]
    dsimp only
    rw [if_neg (by omega), if_neg (by rw [State.received_excise_plant]; omega), Int.toNat_natCast]
    unfold State.startSteep
    dsimp only
    rw [hentry, hg]
    exact congrArg (fun u : State => (u, some (Answered.of .ok))) (State.steepHandover_idle (s := State.onSlot _ n _) hauto hphase)
  · exact (State.post_work ..).trans (by rw [hg]; exact hw)

/-! ## BATCH ABANDON (R18, R57) -/

theorem State.onVessel_congr {s : State} {v : Fin 12} {f g : VesselRec → VesselRec} (h : f (s.vessel v) = g (s.vessel v)) :
    s.onVessel v f = s.onVessel v g := by
  have h' : f s.vessels[v] = g s.vessels[v] := h
  simp only [State.onVessel, onBank, h']

theorem State.vessel_onVessel_same (s : State) (v : Fin 12) (f : VesselRec → VesselRec) : (s.onVessel v f).vessel v = f (s.vessel v) :=
  bank_onBank_same ..

/-- A mode is set with its notice; what the watch of a vessel that is not BLIND then loses goes before the notice. -/
theorem State.stopWatch_modeTo {s : State} {v : Fin 12} (hb : (s.vessel v).blind = false) (m : Mode) :
    (s.modeTo v m).stopWatch v = (s.onVessel v fun r => { r with mode := m, watch := none, blind := false }).postVessel .mode v m.code
      ((s.vessel v).mode.code : Nat) := by
  have hbeside := State.beside_onVessel (v := v) (f := fun r => { r with watch := none }) (fun _ => rfl) (fun _ => rfl) (fun _ => rfl)
  unfold State.stopWatch State.modeTo State.postVessel
  rw [hbeside.post, State.onVessel_onVessel, State.onVessel_congr (g := fun r => { r with mode := m, watch := none, blind := false })]
  · unfold State.clearBlind
    rw [if_neg]
    show ¬ (bank (State.post ..).vessels v).blind = true
    rw [State.post_vessels]
    exact Bool.eq_false_iff.1 (congrArg VesselRec.blind (State.vessel_onVessel_same ..))
  · exact congrArg (fun b => ({ mode := m, fault := (s.vessel v).fault, watch := none, blind := b } : VesselRec)) hb

/-- A steep that holds no valve open enters OFF with the STOP of its fan. -/
theorem State.steepOff_eq {s : State} {i : Fin 4} {g : SteepCfg} (hg : s.steepCfg i = some g) (ha : g.aerate = none)
    (hp : (s.steep i).phase = .empty) (hroom : s.roomFor g.fan cSTOP .override = true) :
    s.steepOff i = (s.queued g.fan cSTOP s.noArg .override (.vessel (steepNo i))).onSteep i fun x =>
      { x with phaseTimer := none, wait := none, co2Hold := false } := by
  obtain ⟨-, -, -, -, -, -, -, -, hwait⟩ := State.roomFor_iff.1 hroom
  have hclose : s.steepCloseOpen i = s := by
    unfold State.steepCloseOpen
    dsimp only
    rw [hg, hp]
    rfl
  have haer : (s.steepCfg i).bind (·.aerate) = none := by rw [hg]; exact ha
  have hfan : (s.steepCfg i).map (·.fan) = some g.fan := by rw [hg]; rfl
  unfold State.steepOff
  dsimp only
  rw [hclose, haer]
  dsimp only [State.sendTo]
  rw [hfan]
  dsimp only
  rw [State.send_room hroom (by decide) rfl (by decide)]
  exact State.discardWaiting_empty (s := (s.queued g.fan cSTOP s.noArg .override (.vessel (steepNo i))).onSteep i fun x =>
    { x with phaseTimer := none, wait := none, co2Hold := false }) hwait _

theorem State.onVessel_onSteep (s : State) (v : Fin 12) (f : VesselRec → VesselRec) (i : Fin 4) (g : Steep → Steep) :
    (s.onVessel v f).onSteep i g = (s.onSteep i g).onVessel v f := rfl
theorem State.queued_onVessel (s : State) (v : Fin 12) (f : VesselRec → VesselRec) (st code : Nat) (a : Int) (o : Origin)
    (p : Purpose) : (s.onVessel v f).queued st code a o p = (s.queued st code a o p).onVessel v f := rfl

/-- A steep that is EMPTY already is emptied beside a notice. -/
theorem State.steepEmpty_post {s : State} {i : Fin 4} (hp : (s.steep i).phase = .empty) (k : NoticeKind) (c : SourceClass)
    (j n : Nat) (x : Int) :
    (s.post k c j n x).steepEmpty i = (s.onSteep i fun x => { x with
      phaseTimer := none, wait := none, fields := none, drained := false }).post k c j n x := by
  have hbeside := State.beside_onSteep (i := i) (f := fun x => { x with
    phaseTimer := none, wait := none, fields := none, drained := false }) fun _ => rfl
  unfold State.steepEmpty
  rw [hbeside.post]
  refine if_pos ?_
  show (bank (State.post ..).steeps i).phase = .empty
  rw [State.post_steeps]
  exact (congrArg Steep.phase (State.steep_onSteep_same ..)).trans hp

/-- An EMPTY steep whose batch is abandoned is OFF, with its fan stopped and its request withdrawn. -/
theorem State.abandonVessel_steep {s : State} {i : Fin 4} {g : SteepCfg} (hoff : s.steepMode i ≠ .off)
    (hb : s.steepBlind i = false) (hp : (s.steep i).phase = .empty) (hg : s.steepCfg i = some g) (ha : g.aerate = none)
    (hroom : s.roomFor g.fan cSTOP .override = true) :
    s.abandonVessel (steepNo i) = ((((s.queued g.fan cSTOP s.noArg .override (.vessel (steepNo i))).onSteep i fun x =>
      { x with phaseTimer := none, wait := none, fields := none, drained := false, co2Hold := false }).onVessel (steepNo i) fun _ =>
        { mode := .off, fault := none, watch := none, blind := false }).post .mode .vessel i.val 0 ((s.steepMode i).code : Nat)).onTransfer
          fun u => { u with requests := u.requests.filter fun q => q.source ≠ steepNo i } := by
  have hroom' := State.roomFor_override_onVessel hroom (v := steepNo i) (f := fun r => { r with fault := none }) hoff
  have hoffeq := State.steepOff_eq (s := s.onVessel (steepNo i) fun r => { r with fault := none }) (i := i) (g := g) hg ha hp hroom'
  have hmode : s.applyMode (steepNo i) .off = (((s.onVessel (steepNo i) fun r => { r with fault := none }).steepOff i).modeTo
      (steepNo i) .off).stopWatch (steepNo i) := by
    unfold State.applyMode State.modeOff State.leaveForOff
    rw [vesselIs_steepNo]
    exact (if_neg hoff).trans (if_pos rfl)
  have hempties : ∀ t : State, t.vesselEmpties (steepNo i) = t.steepEmpty i := fun t => by
    unfold State.vesselEmpties
    rw [vesselIs_steepNo]
  unfold State.abandonVessel State.clearInteg State.onInteg
  rw [integNo_steepNo, hmode, hoffeq, State.stopWatch_modeTo, hempties]
  · unfold State.postVessel
    rw [State.steepEmpty_post]
    · have hold : ((((s.onVessel (steepNo i) fun r => { r with fault := none }).queued g.fan cSTOP
          (s.onVessel (steepNo i) fun r => { r with fault := none }).noArg .override (.vessel (steepNo i))).onSteep i fun x =>
            { x with phaseTimer := none, wait := none, co2Hold := false }).vessel (steepNo i)).mode = s.steepMode i :=
        (congrArg VesselRec.mode (State.vessel_onVessel_same s (steepNo i) fun r => { r with fault := none }) :)
      rw [hold, State.queued_onVessel, State.onVessel_onSteep, State.onVessel_onSteep, State.onVessel_onSteep,
        State.onVessel_onVessel, State.onSteep_onSteep]
      rfl
    · exact (congrArg Steep.phase (State.steep_onSteep_same (s.queued g.fan cSTOP s.noArg .override (.vessel (steepNo i))) i _)).trans hp
  · exact (congrArg VesselRec.blind (State.vessel_onVessel_same s (steepNo i) fun r => { r with fault := none }) :).trans hb

/-- Settles O49: the request passes its checks, and the scan that it prompts finds nothing. -/
theorem abandonEmptiesTheSteep : Obligations.AbandonEmptiesTheSteep := by
  intro s r n b i g h hlen hb hst hacct hv hoff hblind hphase hg haer hroom hscan ha hn e
  have hw := (State.takes_iff.1 h).1
  obtain ⟨f, hf⟩ := State.writeEvent_room (s := s.received .plant) e false (Excise.storeFault_of_avail ha) hn
  have hentry : abandonEntry b = e := by
    unfold abandonEntry
    rw [hacct, hv]
  have hvessel : vesselOf b.vessel = some (steepNo i) := by rw [hv]; exact vesselOf_val (steepNo i)
  have hcomp : ∀ c : Fin 6, compNo c ≠ steepNo i := fun c hc => by
    have := congrArg vesselIs hc
    simp at this
  have hturner : ¬ (b.state.abandonable = false ∨ allTurners.any (fun t => ((s.received .plant).turner t).assigned.any fun c =>
      compNo c = steepNo i) = true) := by
    rw [hst]
    simp [BatchState.abandonable, hcomp]
  have habandon := State.abandonVessel_steep (s := (s.received .plant).onExcise f) hoff hblind hphase hg haer hroom
  refine congrArg Host.Outcome.next (State.requestArrives_scans h (a := .of .ok) (t := State.onSlot _ n fun x =>
    { x with state := .abandoned }) ?_ ?_ ?_)
  · unfold batchAbandon
    rw [onBatchId_eq (s := s.received .plant) hlen hb, hvessel]
    dsimp only
    rw [if_neg (by simpa using hturner), if_neg (by rw [State.received_excise_plant]; omega)]
    unfold State.abandon
    dsimp only
    rw [hentry, hf, habandon]
    rfl
  · rw [hf]
    exact (State.post_work ..).trans hw
  · rw [hf]
    unfold State.noScan at hscan ⊢
    simp only [State.onSlot, State.onBatch_transfer, State.onTransfer_transfer, State.post_transfer]
    rcases Bool.or_eq_true _ _ ▸ hscan with hr | hr
    · exact Bool.or_eq_true_iff.2 (.inl hr)
    · refine Bool.or_eq_true_iff.2 (.inr ?_)
      have hnil : s.transfer.requests = [] := List.isEmpty_iff.1 hr
      show (s.transfer.requests.filter _).isEmpty = true
      rw [hnil]
      rfl

end Sys2Proof.Machine
end

section
/-! PROOFS. The transfer run: its timers, its aborts, and the requests about it (R117, R118, R124, R125, R127 to R131). -/

namespace Sys2Proof.Machine

-- One declaration after the other: side by side, their stacks are more than the check's bound on memory.
set_option Elab.async false

theorem State.onTransfer_congr {s : State} {f g : TransferRun → TransferRun} (h : f s.transfer = g s.transfer) :
    s.onTransfer f = s.onTransfer g := by
  unfold State.onTransfer
  rw [h]

/-- The running transfer, changed where there is one. -/
theorem State.onRun_eq {s : State} {r : Running} (h : s.transfer.running = some r) (f : Running → Running) :
    s.onRun f = s.onTransfer fun u => { u with running := some (f r) } :=
  State.onTransfer_congr (by rw [h]; rfl)

/-! ## Aborts (R131) -/

/-- An abort of a transfer with a route of one leg waits for the report of that leg's STOP. -/
theorem State.abortRun_begins {s : State} {r : Running} {leg : RouteLeg} (hr : s.transfer.running = some r)
    (hroute : r.route = [leg]) (hroom : s.roomFor leg.step.station cSTOP .override = true)
    (hu : r.state = .routing ∨ r.state = .running ∨ r.state = .stalled ∨ r.state = .clearing) (c : AbortCause) : s.abortRun c = s.aborting r leg c := by
  let r1 : Running := { r with
    state := .aborted, cause := some c, routeTimer := none, noFlow := none, runOn := none, draw := none, out := none }
  let s1 : State := s.onTransfer fun u => { u with running := some r1 }
  have hs1 : (s.onRun fun r => { r with
      state := .aborted, cause := some c, routeTimer := none, noFlow := none, runOn := none, draw := none, out := none }) = s1 :=
    State.onRun_eq hr _
  have hstop : s1.offerStops .stopAbort r.route =
      (s1.queued leg.step.station cSTOP s.noArg .override .stopAbort, [{ serial := s.filter.serial }]) := by
    rw [hroute]
    unfold State.offerStops
    rw [State.send_room (s := s1) hroom (by decide) rfl (by decide)]
    rfl
  have hbegin : s.abortRun c = (((s1.offerStops .stopAbort r.route).1.onRun fun r' =>
      { r' with stops := (s1.offerStops .stopAbort r.route).2 })).abortTest := by
    unfold State.abortRun
    rw [hr]
    dsimp only
    rw [hs1]
    rcases hu with h | h | h | h <;> rw [h]
  rw [hbegin, hstop]
  dsimp only
  rw [State.onRun_eq (r := r1) rfl]
  unfold State.abortTest
  dsimp only [State.onTransfer_transfer]
  exact if_neg fun h => Bool.false_ne_true h.2

/-- An abort that is under way already is not begun again. -/
theorem State.abortRun_again {s : State} {r : Running} (hr : s.transfer.running = some r) (hu : r.state = .aborted)
    (c : AbortCause) : s.abortRun c = s := by
  unfold State.abortRun
  rw [hr]
  dsimp only
  rw [hu]

/-! ## The timers (R124, R125, R127, R128) -/

/-- A change of state with a notice of the transferred mass. -/
theorem State.runTo_eq {s : State} {r : Running} (hr : s.transfer.running = some r) (st : TransferState) (f : Running → Running)
    (hf : (f r).source = r.source ∧ (f r).mass = r.mass) :
    s.runTo st f = (s.onTransfer fun u => { u with running := some { f r with state := st } }).post .transfer .transfer
      r.source.val st.code ((r.mass / 1000 : Nat) : Int) := by
  unfold State.runTo
  rw [State.onRun_eq hr]
  dsimp only [State.onTransfer_transfer]
  rw [hf.1]
  unfold State.postTransfer Running.kg
  rw [show ({ f r with state := st } : Running).mass = r.mass from hf.2]

/-- Settles O31: each timer by what its expiry finds. -/
theorem transferTimersEndTheirWaits : Obligations.TransferTimersEndTheirWaits := by
  intro s r hw hr
  refine ⟨fun leg hroute hroom => ⟨fun hs ht => ?_, fun hs ht => ?_⟩, fun ht => ?_, fun ht hleft => ?_⟩
  · show Host.Outcome.next s.routeExpires.settle = _
    unfold State.routeExpires
    rw [hr]
    dsimp only
    rw [if_pos ht, State.abortRun_begins hr hroute hroom (.inl hs)]
    exact congrArg Host.Outcome.next (State.settle_of_idle hw)
  · show Host.Outcome.next s.drawExpires.settle = _
    unfold State.drawExpires
    rw [hr]
    dsimp only
    rw [if_pos ht, State.abortRun_begins hr hroute hroom (.inr hs)]
    exact congrArg Host.Outcome.next (State.settle_of_idle hw)
  · show Host.Outcome.next s.noFlowExpires.settle = _
    unfold State.noFlowExpires
    rw [hr]
    dsimp only
    rw [if_pos ht, State.runTo_eq hr .stalled _ ⟨rfl, rfl⟩]
    exact congrArg Host.Outcome.next (State.settle_of_idle ((State.post_work ..).trans hw))
  · show Host.Outcome.next s.runOnExpires.settle = _
    unfold State.runOnExpires
    rw [hr]
    dsimp only
    rw [if_pos ht, State.onRun_eq hr]
    unfold State.doneTest
    dsimp only [State.onTransfer_transfer]
    rw [if_neg]
    · exact congrArg Host.Outcome.next (State.settle_of_idle hw)
    · rintro ⟨-, -, hout, hlen⟩
      rcases hleft with h | h
      · rw [Option.isNone_iff_eq_none] at hout
        rw [hout] at h
        exact nomatch h
      · exact absurd hlen (Nat.not_le.2 h)

/-! ## Requests (R117, R118, R130, R131) -/

/-- Settles O53: the request is refused, or joins the list, where the scan it prompts finds a transfer running. -/
theorem transferRequestJoinsTheList : Obligations.TransferRequestJoinsTheList := by
  intro s r k v d h hread hlen
  have hdo : ∀ t : State, transferRequest .plant r t = if !t.awaitsTransfer v ∨ t.hasRequest v then t.says .wrongState
      else (t.addRequest { kind := k, source := v, dest := if k = .strip then some (d.getD 12) else d, fromPlant := true
                           time := t.timeNow }).done := fun t => by
    unfold transferRequest
    rw [if_neg (by omega), if_neg (by decide), hread]
  refine ⟨fun hno => ?_, fun ha hq hrun => ?_⟩
  · refine congrArg Host.Outcome.next (State.requestArrives_says h ?_)
    rw [hdo]
    refine if_pos (hno.imp (fun h => ?_) id)
    show (!s.awaitsTransfer v) = true
    rw [h]
    rfl
  · refine congrArg Host.Outcome.next (State.requestArrives_scans h (a := .of .ok) ((hdo _).trans ((if_neg ?_).trans rfl)) ?_ ?_)
    · show ¬ ((!s.awaitsTransfer v) = true ∨ s.hasRequest v = true)
      rw [ha, hq]
      decide
    · exact (State.takes_iff.1 h).1
    · show (s.transfer.running.isSome || _) = true
      rw [hrun]
      rfl

/-- A resumption with no usable reading of the source and a draw outstanding. -/
theorem State.resumeRun_eq {s : State} {x : Running} {g : RunCfg} (hr : s.transfer.running = some x)
    (hg : s.tables.transfer.run = some g) (huse : s.usableRole (.vessel x.source) (emptyRole x.source) = none)
    (hout : x.out.isSome = true) :
    s.resumeRun = ((s.onTransfer fun u => { u with running := some { x with state := .running } }).post .transfer .transfer
      x.source.val 1 ((x.mass / 1000 : Nat) : Int)).onTransfer fun u => { u with
        running := some { x with state := .running, noFlow := some (g.noFlow * 10) } } := by
  let p : State := (s.onTransfer fun u => { u with running := some { x with state := .running } }).post .transfer .transfer
    x.source.val 1 ((x.mass / 1000 : Nat) : Int)
  have hp : p.transfer.running = some { x with state := .running } := by
    show (State.post ..).transfer.running = _
    rw [State.post_transfer]
    rfl
  have hto : (s.runTo .running id).onRun (fun r => { r with noFlow := s.runTimer (·.noFlow) }) =
      p.onTransfer fun u => { u with running := some { x with state := .running, noFlow := some (g.noFlow * 10) } } := by
    rw [show s.runTo .running id = p from State.runTo_eq hr .running id ⟨rfl, rfl⟩, State.onRun_eq hp]
    unfold State.runTimer
    rw [hg]
    rfl
  have huse' : (p.onTransfer fun u => { u with running := some { x with state := .running, noFlow := some (g.noFlow * 10) } }
      ).usableRole (.vessel x.source) (emptyRole x.source) = none :=
    (State.usableRole_congr (State.post_tables ..) (State.post_intake ..) ..).trans huse
  unfold State.resumeRun
  dsimp only
  rw [hto, hr]
  dsimp only
  rw [huse']
  dsimp only
  unfold State.drawTest
  dsimp only [State.onTransfer_transfer]
  split
  · exact if_neg fun h => by rw [Option.isNone_iff_eq_none] at h; rw [h.1] at hout; exact nomatch hout
  · rfl

/-- Settles O54: a resumption by the state of the transfer, and an abort by whether one is under way. -/
theorem resumeAndAbortActOnTheTransfer : Obligations.ResumeAndAbortActOnTheTransfer := by
  intro s r x h hargs hr begun
  have hw := (State.takes_iff.1 h).1
  have hresume : ∀ t : State, t.transfer.running = some x → transferResume .plant r t =
      if some x.state ≠ some TransferState.stalled then t.says .wrongState else t.resumeRun.done := fun t ht => by
    unfold transferResume State.runState
    rw [if_neg (by simp [hargs]), if_neg (by decide), ht]
    rfl
  have habort : transferAbort .plant r (s.received .plant) = ((begun (s.received .plant)).abortRun .operator, none) := by
    unfold transferAbort
    rw [if_neg (by simp [hargs]), if_neg (by decide), if_neg (by simp [hr])]
    rfl
  refine ⟨fun hst => ?_, fun g hst hg huse hout => ?_, fun leg hroute hroom hst => ?_, fun hst => ?_⟩
  · refine congrArg Host.Outcome.next (State.requestArrives_says h ?_)
    rw [hresume (s.received .plant) hr]
    exact if_pos fun hn => hst (Option.some.inj hn)
  · refine congrArg Host.Outcome.next (State.requestArrives_settles h (a := .of .ok) ?_ ?_)
    · rw [hresume (s.received .plant) hr, if_neg (by simp [hst]), State.resumeRun_eq (s := s.received .plant) hr hg huse hout]
      rfl
    · exact (State.post_work ..).trans hw
  · refine congrArg Host.Outcome.next ?_
    rw [State.requestArrives_begins h habort, State.abortRun_begins (s := begun (s.received .plant)) hr hroute hroom hst]
    exact State.settle_of_idle hw
  · refine congrArg Host.Outcome.next ?_
    rw [State.requestArrives_begins h habort, State.abortRun_again (s := begun (s.received .plant)) hr hst]
    exact State.settle_of_idle hw

end Sys2Proof.Machine
end

section
/-! PROOFS. The turners: their records, their drives, the arbiter, and the faults of their timers (R74 to R82). -/

namespace Sys2Proof.Machine

-- One declaration after the other: side by side, their stacks are more than the check's bound on memory.
set_option Elab.async false

/-! ## Records of turners and compartments -/

theorem State.onTurner_onTurner (s : State) (t : Fin 2) (f g : Turner → Turner) :
    (s.onTurner t f).onTurner t g = s.onTurner t fun x => g (f x) := by
  simp [State.onTurner, onBank]

theorem State.onTurner_congr {s : State} {t : Fin 2} {f g : Turner → Turner} (h : f (s.turner t) = g (s.turner t)) :
    s.onTurner t f = s.onTurner t g := by
  have h' : f s.turners[t] = g s.turners[t] := h
  unfold State.onTurner onBank
  rw [h']

theorem State.onComp_onComp (s : State) (c : Fin 6) (f g : Comp → Comp) :
    (s.onComp c f).onComp c g = s.onComp c fun x => g (f x) := by
  simp [State.onComp, onBank]

theorem State.onComp_congr {s : State} {c : Fin 6} {f g : Comp → Comp} (h : f (s.comp c) = g (s.comp c)) :
    s.onComp c f = s.onComp c g := by
  have h' : f s.comps[c] = g s.comps[c] := h
  unfold State.onComp onBank
  rw [h']

theorem State.onComp_self {s : State} {c : Fin 6} {f : Comp → Comp} (h : f (s.comp c) = s.comp c) : s.onComp c f = s := by
  unfold State.onComp
  rw [onBank_self h]

theorem State.post_turner (s : State) (k : NoticeKind) (c : SourceClass) (i n : Nat) (v : Int) (t : Fin 2) :
    (s.post k c i n v).turner t = s.turner t := by
  unfold State.turner
  rw [State.post_turners]

theorem State.post_comp (s : State) (k : NoticeKind) (c : SourceClass) (i n : Nat) (v : Int) (d : Fin 6) :
    (s.post k c i n v).comp d = s.comp d := by
  unfold State.comp
  rw [State.post_comps]

theorem State.phaseIndex_comp (s : State) (c : Fin 6) : s.phaseIndex (compNo c) = (s.comp c).index := by
  unfold State.phaseIndex
  rw [vesselIs_compNo]

/-! ## Drives -/

theorem State.turnerTo_eq (s : State) (t : Fin 2) (f : Turner → Turner) :
    s.turnerTo t f = (s.onTurner t f).post .turner .turner t.val (f (s.turner t)).state.code (f (s.turner t)).noticeValue := by
  unfold State.turnerTo
  dsimp only
  rw [State.onTurner_turner_same]

theorem State.drive_room {s : State} {t : Fin 2} {g : TurnerCfg} (hg : s.turnerCfg t = some g) {code : Nat}
    (h : s.roomFor g.drive code .sequencer = true) (hc : code ≠ cRUN) (hd : dutyCode code = false) :
    s.drive t code = s.queued g.drive code s.noArg .sequencer (.drive t) := by
  unfold State.drive
  rw [hg]
  exact State.send_room h hc hd (by decide)

/-! ## The arbiter (R76, R77) -/

/-- With no turner IDLE the arbiter grants nothing. -/
theorem State.turnerArbiter_of_busy {s : State} (h : ∀ t, (s.turner t).state ≠ .idle) : s.turnerArbiter = s := by
  have hreach : ∀ t p, s.reach t p = none := fun t p => by
    unfold State.reach
    split
    · exact absurd ‹_› (h t)
    · rfl
  have hchoose : ∀ p, s.chooseTurner p = none := fun p => by
    unfold State.chooseTurner
    rw [hreach, hreach]
  unfold State.turnerArbiter
  induction s.pendingDemands with
  | nil => rfl
  | cons d ds ih =>
    rw [List.foldl_cons, hchoose]
    exact ih

/-! ## Faults (R81, R82) -/

/-- A turner that does not home faults: its drive is stopped, its timers stop, and its notice is posted. -/
def State.turnerStops (s : State) (t : Fin 2) (g : TurnerCfg) (c : TurnerCause) : State :=
  ((s.queued g.drive cSTOP s.noArg .sequencer (.drive t)).onTurner t fun x => { x with
    state := .fault, cause := some c, moveTimer := none, passTimer := none, faultReport := none }).post .turner .turner
      t.val 6 c.code

theorem State.turnerFault_stops {s : State} {t : Fin 2} {g : TurnerCfg} (hg : s.turnerCfg t = some g)
    (h : s.roomFor g.drive cSTOP .sequencer = true) (c : TurnerCause) :
    ((s.drive t cSTOP).onTurner t fun x => { x with moveTimer := none, passTimer := none }).turnerTo t (fun x =>
      { x with state := .fault, cause := some c, faultReport := none }) = s.turnerStops t g c := by
  rw [State.drive_room hg h (by decide) rfl, State.turnerTo_eq, State.onTurner_onTurner]
  rfl

theorem State.turnerStops_not_idle {s : State} {t : Fin 2} (ho : (s.turner (other t)).state ≠ .idle) {g : TurnerCfg}
    {c : TurnerCause} (j : Fin 2) : ((s.turnerStops t g c).turner j).state ≠ .idle := by
  unfold State.turnerStops
  rw [State.post_turner]
  rcases eq_or_eq_other j t with rfl | rfl
  · rw [State.onTurner_turner_same]
    exact TurnerState.noConfusion
  · rw [State.onTurner_turner_ne _ (other_ne t)]
    exact ho

/-- A fault of a turner that is assigned nowhere. -/
theorem State.turnerFault_unassigned {s : State} {t : Fin 2} {g : TurnerCfg} (hg : s.turnerCfg t = some g)
    (h : s.roomFor g.drive cSTOP .sequencer = true) (hs : (s.turner t).state ≠ .homing) (ha : (s.turner t).assigned = none)
    (c : TurnerCause) : s.turnerFault t c = s.turnerStops t g c := by
  unfold State.turnerFault
  dsimp only
  rw [ha, if_neg hs, State.turnerFault_stops hg h]

/-- The first fault in a compartment of a turner that works there, with no other turner IDLE. -/
theorem State.turnerFault_first {s : State} {t : Fin 2} {g : TurnerCfg} {n : Fin 6} (hg : s.turnerCfg t = some g)
    (h : s.roomFor g.drive cSTOP .sequencer = true) (hs : (s.turner t).state ≠ .homing)
    (ha : (s.turner t).assigned = some n) (hn : (s.comp n).faults = 0) (ho : (s.turner (other t)).state ≠ .idle)
    {c : TurnerCause} (hc : c ≠ .unbiddenMove) :
    s.turnerFault t c = (((s.turnerStops t g c).onComp n fun x => { x with faults := 1 }).post .fault .vessel (compNo n).val 4
      (s.comp n).index).returnDemand t n := by
  let u := s.turnerStops t g c
  have hcomp : u.comp n = s.comp n := State.post_comp ..
  have hcount : u.countTurnerFault n = (u.onComp n fun x => { x with faults := 1 }).post .fault .vessel (compNo n).val 4
      (s.comp n).index := by
    unfold State.countTurnerFault State.postFault
    dsimp only
    rw [hcomp, hn, if_pos (by decide), State.phaseIndex_comp, State.onComp_comp_same, hcomp]
    rfl
  unfold State.turnerFault
  dsimp only
  rw [ha, if_neg hs, State.turnerFault_stops hg h]
  dsimp only
  rw [if_neg hc, hcount]
  refine State.turnerArbiter_of_busy fun j => ?_
  have hj : (((u.onComp n fun x => { x with faults := 1 }).post .fault .vessel (compNo n).val 4 (s.comp n).index).returnDemand
      t n).turner j = u.turner j := State.post_turner ..
  rw [hj]
  exact State.turnerStops_not_idle ho j

/-- Settles O24: what the fault of a turner that works in a compartment comes to, for both of its timers. -/
theorem turnerTimeoutsFaultTheTurner : Obligations.TurnerTimeoutsFaultTheTurner := by
  intro s t n g hw ha hg hroom hn ho faulted
  have hfault : ∀ c, (s.turner t).state ≠ .homing → c ≠ .unbiddenMove → (s.turnerFault t c).settle = faulted c :=
    fun c hs hc => by
      rw [State.turnerFault_first hg hroom hs ha hn ho hc]
      exact State.settle_of_idle ((State.post_work ..).trans ((State.post_work ..).trans hw))
  refine ⟨fun ⟨hs, ht⟩ => ?_, fun ⟨hs, ht⟩ => ?_⟩
  · show Host.Outcome.next (s.moveExpires t).settle = _
    unfold State.moveExpires
    rw [if_pos ht, hfault _ (by rw [hs]; decide) (by decide)]
  · show Host.Outcome.next (s.passExpires t).settle = _
    unfold State.passExpires
    rw [if_pos ht, hfault _ (by rcases hs with h | h <;> rw [h] <;> decide) (by decide)]

end Sys2Proof.Machine
end

section
/-! PROOFS. The turners' encoders: pass-position tracking, the home marker, and the ends of passes and back-runs (R79 to R86). -/

namespace Sys2Proof.Machine

-- One declaration after the other: side by side, their stacks are more than the check's bound on memory.
set_option Elab.async false

/-! ## Tracking and the marker (R83, R84) -/

/-- A turner's record after an encoder delivery, before the checks of its pass: position, clamps and marker. -/
def State.tracked (s : State) (t : Fin 2) (q clamps : Nat) (m : Bool) : State :=
  s.onTurner t fun y => { y with pass := q, clamps := clamps, marker := m }

theorem narrow_zero {b x : Int} (hb : 0 ≤ b) : narrow 0 b x = min (max x 0) b := by
  unfold narrow
  split
  · omega
  · split <;> omega

theorem narrow_eq_self {b x : Int} (hb : 0 ≤ b) : narrow 0 b x = x ↔ 0 ≤ x ∧ x ≤ b := by
  rw [narrow_zero hb]
  omega

theorem State.trackPass_eq (s : State) (t : Fin 2) (d : Int) :
    s.trackPass t d = s.tracked t (min (max ((s.turner t).pass + d) 0) (s.passBound t : Int)).toNat
      (if 0 ≤ (s.turner t).pass + d ∧ (s.turner t).pass + d ≤ s.passBound t then (s.turner t).clamps
        else min max16 ((s.turner t).clamps + 1)) (s.turner t).marker := by
  have hb : (0 : Int) ≤ s.passBound t := Int.natCast_nonneg _
  unfold State.trackPass State.tracked
  refine State.onTurner_congr ?_
  rw [if_congr (narrow_eq_self hb) rfl rfl, narrow_zero hb]
  rfl

theorem State.tracked_turner (s : State) (t : Fin 2) (q c : Nat) (m : Bool) :
    (s.tracked t q c m).turner t = { s.turner t with pass := q, clamps := c, marker := m } := State.onTurner_turner_same ..

/-- Without a rise of the marker the marker test records the flag alone. -/
theorem State.markerTest_level {s : State} {t : Fin 2} {q c : Nat} {m flag : Bool} (h : ¬ (flag = true ∧ m = false)) (d : Int) :
    (s.tracked t q c m).markerTest t flag d = s.tracked t q c flag := by
  unfold State.markerTest
  dsimp only
  rw [State.tracked_turner, if_neg]
  · exact State.onTurner_onTurner ..
  · rintro ⟨h1, h2⟩
    exact h ⟨h1, (Bool.not_eq_true' m).mp h2⟩

/-- A rise while the turner moves outward is ambiguous. -/
theorem State.markerTest_ambiguous {s : State} {t : Fin 2} {q c : Nat} {d : Int} (hd : 0 < d) :
    (s.tracked t q c false).markerTest t true d =
      (s.tracked t q c true).onTurner t fun y => { y with ambiguous := min max16 (y.ambiguous + 1) } := by
  unfold State.markerTest
  dsimp only
  rw [State.tracked_turner, if_pos ⟨rfl, rfl⟩, if_neg (by omega), State.onTurner_onTurner]
  unfold State.tracked
  rw [State.onTurner_onTurner, State.onTurner_onTurner]
  rfl

/-- A rise on the way back sets the position to 0, without a slip where the turner homes, is unhomed, or stands near the marker. -/
theorem State.markerTest_home {s : State} {t : Fin 2} {g : TurnerCfg} {q c : Nat} {d : Int} (hg : s.turnerCfg t = some g) (hd : d ≤ 0)
    (h : (s.turner t).position = none ∨ (s.turner t).state = .homing ∨ q ≤ g.markTol) :
    (s.tracked t q c false).markerTest t true d = s.tracked t 0 c true := by
  have hcfg : (s.tracked t q c false).turnerCfg t = some g := hg
  unfold State.markerTest
  dsimp only
  rw [State.tracked_turner, hcfg, if_pos ⟨rfl, rfl⟩, if_pos hd, if_neg]
  · unfold State.tracked
    rw [State.onTurner_onTurner, State.onTurner_onTurner]
  · rintro ⟨h1, h2, h3⟩
    rcases h with h | h | h
    · simp [h] at h1
    · exact h2 h
    · exact absurd h3 (Nat.not_lt.2 h)

/-- A rise of a homed turner beyond the marker tolerance is a slip. -/
theorem State.markerTest_slip {s : State} {t : Fin 2} {g : TurnerCfg} {q c : Nat} {d : Int} (hg : s.turnerCfg t = some g) (hd : d ≤ 0)
    (hp : (s.turner t).position.isSome = true) (hs : (s.turner t).state ≠ .homing) (hq : g.markTol < q) :
    (s.tracked t q c false).markerTest t true d = ((s.tracked t 0 c false).post .slip .turner t.val 0 q).onTurner t fun y =>
      { y with slips := min max16 (y.slips + 1), marker := true } := by
  have hcfg : (s.tracked t q c false).turnerCfg t = some g := hg
  unfold State.markerTest
  dsimp only
  rw [State.tracked_turner, hcfg, if_pos ⟨rfl, rfl⟩, if_pos hd, if_pos ⟨hp, hs, hq⟩, State.onTurner_onTurner]
  unfold State.tracked
  rw [State.onTurner_onTurner]
  rfl

/-! ## Ends of passes (R79, R80) -/

theorem Turner.noticeValue_passBack {x : Turner} {c : Fin 6} (ha : x.assigned = some c) :
    ({ x with state := .passBack } : Turner).noticeValue = (compNo c).val := by
  unfold Turner.noticeValue
  dsimp only
  rw [ha]

theorem State.bedHot_congr {s u : State} (ht : u.tables = s.tables) (hi : u.intake = s.intake) (c : Fin 6) :
    u.bedHot c = s.bedHot c := by
  unfold State.bedHot State.live
  rw [ht, hi]

theorem State.bedHot_onComp (s : State) (d : Fin 6) (f : Comp → Comp) (c : Fin 6) : (s.onComp d f).bedHot c = s.bedHot c := rfl

/-- A completed pass, with the bed not hot and no demand elsewhere. -/
theorem State.passComplete_eq {s : State} {t : Fin 2} {g : TurnerCfg} {c : Fin 6} (hg : s.turnerCfg t = some g)
    (hroom : s.roomFor g.drive cSTOP .sequencer = true) (ha : (s.turner t).assigned = some c) (hb : s.bedHot c = false)
    (hd : ∀ d, d ≠ c → (s.comp d).demand = none) :
    s.passComplete t = ((((s.queued g.drive cSTOP s.noArg .sequencer (.drive t)).onTurner t fun y => { y with
      state := .idle, assigned := none, passTimer := none }).post .turner .turner t.val 2
        ((s.turner t).position.getD 255 : Nat)).onComp c fun y => { y with
          demand := none, faults := 0
          interval := if y.phase = .germinating ∧ y.index ≠ 255
            then y.fields.bind fun f => if f.interval = 0 then none else some (f.interval * 600)
            else y.interval }).emit .scan := by
  let p := ((s.queued g.drive cSTOP s.noArg .sequencer (.drive t)).onTurner t fun y => { y with
      state := .idle, assigned := none, passTimer := none }).post .turner .turner t.val 2
        ((s.turner t).position.getD 255 : Nat)
  have hstop : ((s.drive t cSTOP).onTurner t fun x => { x with passTimer := none }).turnerTo t (fun x =>
      { x with state := .idle, assigned := none }) = p := by
    rw [State.drive_room hg hroom (by decide) rfl, State.turnerTo_eq, State.onTurner_onTurner, State.onTurner_turner_same]
    rfl
  have hbed : p.bedHot c = false := (State.bedHot_congr (State.post_tables ..) (State.post_intake ..) c).trans hb
  have hcomp : ∀ d, p.comp d = s.comp d := fun d => State.post_comp ..
  unfold State.passComplete
  dsimp only
  rw [ha, hstop]
  dsimp only
  rw [if_neg (by rw [State.bedHot_onComp, State.bedHot_onComp, hbed]; decide), State.onComp_onComp]
  refine (State.turnerArbiter_of_idle fun d => ?_).trans (congrArg (State.emit · .scan) (State.onComp_congr ?_))
  · rcases eq_or_ne d c with rfl | hdc
    · show (State.comp (State.onComp p d _) d).demand = none
      rw [State.onComp_comp_same]
      split <;> rfl
    · show (State.comp (State.onComp p c _) d).demand = none
      rw [State.onComp_comp_ne _ hdc, hcomp]
      exact hd d hdc
  · dsimp only
    split
    · cases (p.comp c).fields <;> rfl
    · rfl

/-! ## Back-runs (R86) -/

theorem State.endLong_comps (s : State) (o : Originator) (st : Status) (d : Nat) : (s.endLong o st d).comps = s.comps := by
  unfold State.endLong
  split
  · exact State.formReply_comps ..
  · rfl

/-- A back-run that has ended at the marker is told to the TURNER HOME that waits, which it answers where the other has ended. -/
theorem State.homingEnds_eq {s : State} {t : Fin 2} {g : TurnerCfg} (hg : s.turnerCfg t = some g)
    (hroom : s.roomFor g.drive cSTOP .sequencer = true) (hd : ∀ d, (s.comp d).demand = none) {q : InProgress}
    (hq : s.mgmt.plant = some q) (hcls : q.cls = 4) (hcode : q.code = 1) :
    let q' := if t = 0 then { q with home0 := true } else { q with home1 := true }
    let told := (((s.queued g.drive cSTOP s.noArg .sequencer (.drive t)).onTurner t fun y => { y with
      state := .idle, passTimer := none }).post .turner .turner t.val 2 ((s.turner t).position.getD 255 : Nat)).onMgmt
        fun m => { m with plant := some q' }
    s.homingEnds t = if q'.home0 ∧ q'.home1 then told.endLong .plant .ok 0 else told := by
  intro q' told
  let p := ((s.queued g.drive cSTOP s.noArg .sequencer (.drive t)).onTurner t fun y => { y with
      state := .idle, passTimer := none }).post .turner .turner t.val 2 ((s.turner t).position.getD 255 : Nat)
  have hstop : ((s.drive t cSTOP).onTurner t fun x => { x with passTimer := none }).turnerTo t (fun x =>
      { x with state := .idle }) = p := by
    rw [State.drive_room hg hroom (by decide) rfl, State.turnerTo_eq, State.onTurner_onTurner, State.onTurner_turner_same]
    rfl
  have hmgmt : p.mgmt.plant = some q := (congrArg Mgmt.plant (State.post_mgmt ..)).trans hq
  have hdone : p.homeDone t = if q'.home0 ∧ q'.home1 then told.endLong .plant .ok 0 else told := by
    unfold State.homeDone
    rw [hmgmt]
    dsimp only
    rw [if_pos ⟨hcls, hcode⟩]
  have hcomps : (if q'.home0 ∧ q'.home1 then told.endLong .plant .ok 0 else told).comps = s.comps := by
    have htold : told.comps = s.comps := State.post_comps ..
    split
    · exact (State.endLong_comps ..).trans htold
    · exact htold
  unfold State.homingEnds
  rw [hstop, hdone]
  refine State.turnerArbiter_of_idle fun d => ?_
  unfold State.comp
  rw [hcomps]
  exact hd d

/-! ## Deliveries -/

section

variable {s u : State} {t : Fin 2} {d : Int} {m : Bool} (hu : (s.trackPass t d).markerTest t m d = u)
include hu

/-- Outside a pass and a back-run a delivery is tracked, and no more. -/
theorem State.turnerEncoder_resting (hs : (s.turner t).state = .unhomed ∨ (s.turner t).state = .idle ∨
    (s.turner t).state = .moving ∨ (s.turner t).state = .fault) : s.turnerEncoder t d m = u := by
  unfold State.turnerEncoder
  rw [hu]
  dsimp only
  rcases hs with h | h | h | h <;> rw [h]

theorem State.turnerEncoder_out {g : TurnerCfg} (hg : s.turnerCfg t = some g) (hs : (s.turner t).state = .passOut) :
    s.turnerEncoder t d m = if (s.turner t).passLength ≤ (u.turner t).pass + g.endTol then
      (u.drive t cBACK).turnerTo t fun y => { y with state := .passBack } else u := by
  unfold State.turnerEncoder
  rw [hu, hg]
  dsimp only
  rw [hs]
  rfl

theorem State.turnerEncoder_back {g : TurnerCfg} (hg : s.turnerCfg t = some g) (hs : (s.turner t).state = .passBack) :
    s.turnerEncoder t d m = if (u.turner t).pass ≤ g.endTol then u.passComplete t else u := by
  unfold State.turnerEncoder
  rw [hu, hg]
  dsimp only
  rw [hs]
  rfl

theorem State.turnerEncoder_homing (hs : (s.turner t).state = .homing) (htg : (s.turner t).target = none)
    (hm : m = true ∧ (s.turner t).marker = false) (hd : d ≤ 0) : s.turnerEncoder t d m = u.homingEnds t := by
  unfold State.turnerEncoder
  rw [hu]
  dsimp only
  rw [hs]
  exact if_pos ⟨Option.isNone_iff_eq_none.2 htg, hm.1, by rw [hm.2]; decide, hd⟩

end

theorem State.deliver_encoder {s : State} {t : Fin 2} {n : Nat} {e : MpEntry} (ho : e.owner = .turner t) (hr : e.role = .turnerEncoder)
    (hn : s.mpOf (.turner t) .turnerEncoder = some n) (v : MpValue) : s.deliver n e v = s.turnerEncoder t v.val v.marker := by
  unfold State.deliver
  rw [ho, hr, if_neg (fun h => h hn)]

/-- Settles O25: what the tracking and the marker leave, and then the state of the turner. -/
theorem encoderTracksThePass : Obligations.EncoderTracksThePass := by
  intro s t n e v g ho hr hn hg x sum p clamps at_ rises resting
  have hdel : s.deliver n e v = s.turnerEncoder t v.val v.marker := State.deliver_encoder ho hr hn v
  have htrack : s.trackPass t v.val = s.tracked t p clamps x.marker := State.trackPass_eq s t v.val
  have hlevel : ¬ rises → (s.trackPass t v.val).markerTest t v.marker v.val = at_ s p v.marker := fun h => by
    rw [htrack]
    exact State.markerTest_level h _
  have hhome : rises → v.val ≤ 0 → (x.position = none ∨ x.state = .homing ∨ p ≤ g.markTol) →
      (s.trackPass t v.val).markerTest t v.marker v.val = at_ s 0 true := fun hm hd h => by
    rw [htrack, hm.1, hm.2]
    exact State.markerTest_home hg hd h
  have hat : ∀ q m, (at_ s q m).turner t = { x with pass := q, clamps := clamps, marker := m } := fun q m =>
    State.tracked_turner s t q clamps m
  refine ⟨fun hs => ⟨fun h => ?_, fun h hd => ?_, fun h hd => ⟨fun hp => ?_, fun hp hq => ?_⟩⟩, fun hm c ha => ⟨fun hs => ⟨fun hp => ?_, fun hp hroom => ?_⟩,
    fun hs => ⟨fun hp => ?_, fun hp hw hroom hb hscan hd => ?_⟩⟩, fun hs htg hm hd hroom hdem => ?_⟩
  · rw [hdel, State.turnerEncoder_resting (hlevel h) hs]
  · rw [hdel, State.turnerEncoder_resting rfl hs, htrack, h.1, h.2]
    exact State.markerTest_ambiguous hd
  · rw [hdel, State.turnerEncoder_resting (hhome h hd (hp.imp id .inr)) hs]
  · rw [hdel, State.turnerEncoder_resting rfl hs, htrack, h.1, h.2]
    refine State.markerTest_slip hg hd hp ?_ hq
    show x.state ≠ .homing
    rcases hs with hs | hs | hs | hs <;> rw [hs] <;> decide
  · rw [hdel, State.turnerEncoder_out (hlevel hm) hg hs, hat, if_neg (Nat.not_le.2 hp)]
  · rw [hdel, State.turnerEncoder_out (hlevel hm) hg hs, hat, if_pos hp, State.drive_room (s := at_ s p v.marker) hg hroom (by decide) rfl,
      State.turnerTo_eq]
    exact congrArg (fun w : Nat => State.post _ .turner .turner t.val 5 w)
      (Turner.noticeValue_passBack ((congrArg Turner.assigned (hat p v.marker)).trans ha))
  · rw [hdel, State.turnerEncoder_back (hlevel hm) hg hs, hat, if_neg (Nat.not_le.2 hp)]
  · rw [hdel, State.turnerEncoder_back (hlevel hm) hg hs, hat, if_pos hp, State.passComplete_eq (s := at_ s p v.marker) hg hroom
      ((congrArg Turner.assigned (hat ..)).trans ha) hb hd]
    rw [congrArg Turner.position (hat p v.marker), show (at_ s p v.marker).noArg = s.noArg from rfl]
    refine State.settle_emit_scan ((State.post_work ..).trans hw) ?_
    unfold State.noScan
    rw [show ∀ (y : State) (f : Comp → Comp), (y.onComp c f).transfer = y.transfer from fun _ _ => rfl, State.post_transfer]
    exact hscan
  · intro idle q hq hcls hcode q' told
    have hall : s.deliver n e v = if q'.home0 ∧ q'.home1 then told.endLong .plant .ok 0 else told := by
      rw [hdel, State.turnerEncoder_homing (hhome hm hd (.inr (.inl hs))) hs htg hm hd,
        State.homingEnds_eq (s := at_ s 0 true) hg hroom hdem hq hcls hcode, congrArg Turner.position (hat 0 true)]
      rfl
    refine ⟨fun h => ?_, fun h0 h1 => ?_⟩
    · rw [hall, if_neg]
      rintro ⟨h0, h1⟩
      rcases h with h | h
      · exact Bool.noConfusion (h.symm.trans h0)
      · exact Bool.noConfusion (h.symm.trans h1)
    · rw [hall, if_pos ⟨h0, h1⟩]

end Sys2Proof.Machine
end

section
/-! PROOFS. CONFIRM telegrams and the ends of their waits (R9, R158, R161, R162, R180). -/

namespace Sys2Proof.Machine

-- One declaration after the other: side by side, their stacks are more than the check's bound on memory.
set_option Elab.async false

/-! ## Refusals, reports and the queue -/

theorem State.refuse_filter (s : State) (st code tag : Nat) (r : Reason) (d : Nat) :
    (s.refuse st code tag r d).filter = s.filter := (State.refuse_same ..).filter

theorem State.reoffer_none {s : State} (h : s.filter.waiting = []) : s.reoffer = s := by
  have hf : (s.onFilter fun f => { f with waiting := [] }) = s := State.onFilter_congr (g := id) (by rw [← h]; rfl)
  unfold State.reoffer
  rw [h, hf]
  rfl

theorem State.onSlot_congr {s : State} {m : Nat} {b : Batch} (hb : s.batch.slots.get m = some b) {f g : Batch → Batch} (h : f b = g b) :
    s.onSlot m f = s.onSlot m g := by
  have hupd : ∀ f : Batch → Batch, s.batch.slots.upd m f = s.batch.slots.put m (f b) := fun f => by
    unfold Tbl.upd
    rw [hb]
  unfold State.onSlot State.onBatch
  dsimp only
  rw [hupd, hupd, h]

/-- A window that ends with nothing in flight settles nothing. -/
theorem State.settleFlights_none {s : State} (h : ∀ q ∈ s.filter.queue, q.flight = none) : s.settleFlights = s := by
  unfold State.settleFlights
  rw [List.filter_eq_nil_iff.2 fun q hq => by rw [h q hq]; decide]
  rfl

/-! ## Credits (R9, R161) -/

/-- Who is credited with an ACCEPTED delivery: no one, or the batch that germinates in the owner compartment. -/
def State.Credits (s : State) (e : QEntry) (x : Flight) (u : State) : Prop :=
  (u = s ∧ (e.offer.code ≠ cSPRINKLE ∨ x.arg ≤ 0 ∨ (∀ c, x.owner ≠ some (compNo c)) ∨
    ∃ c, x.owner = some (compNo c) ∧ ∀ m b, s.batchAt (compNo c) = some (m, b) → b.state ≠ .germinating)) ∨
  ∃ c m b d, e.offer.code = cSPRINKLE ∧ 0 < x.arg ∧ x.owner = some (compNo c) ∧
    s.batchAt (compNo c) = some (m, b) ∧ s.batch.slots.get m = some b ∧ b.state = .germinating ∧ b.acct = some d ∧
    let sum := d.water + x.arg.toNat * 1000
    let water := min sum 50000000
    u = s.onSlot m fun _ => { b with
      acct := some { d with water := water, moisture := water * 10000 / (d.dry + water) }
      marks := { b.marks with waterCeiling := b.marks.waterCeiling || decide (50000000 < sum) }
      litres := min max32 (b.litres + x.arg.toNat) }

theorem compNo_of_vesselIs {v : Fin 12} {c : Fin 6} (h : vesselIs v = .comp c) : v = compNo c := by
  revert v c
  decide

theorem steepNo_of_vesselIs {v : Fin 12} {i : Fin 4} (h : vesselIs v = .steep i) : v = steepNo i := by
  revert v i
  decide

theorem Batch.sprinkle_eq {b : Batch} {d : Account} (h : b.acct = some d) (l : Nat) :
    b.sprinkle l = { b with
      acct := some { d with
        water := min (d.water + l * 1000) 50000000
        moisture := min (d.water + l * 1000) 50000000 * 10000 / (d.dry + min (d.water + l * 1000) 50000000) }
      marks := { b.marks with waterCeiling := b.marks.waterCeiling || decide (50000000 < d.water + l * 1000) }
      litres := min max32 (b.litres + l) } := by
  unfold Batch.sprinkle
  rw [h]
  dsimp only
  by_cases hc : 50000000 < d.water + l * 1000
  · rw [if_pos hc, decide_eq_true hc, Bool.or_true]
    rfl
  · rw [if_neg hc, decide_eq_false hc, Bool.or_false]
    rfl

theorem State.creditDelivered_credits {s u : State} {e : QEntry} {x : Flight} (h : s.Credits e x u) :
    s.creditDelivered e x = u := by
  unfold State.creditDelivered
  rcases h with ⟨rfl, h⟩ | ⟨c, m, b, d, hcode, harg, howner, hat, hslot, hstate, hacct, rfl⟩
  · cases ho : x.owner with
    | none => rfl
    | some v =>
      dsimp only
      split
      · next c hv =>
        by_cases hcode : e.offer.code = cSPRINKLE
        · rw [if_pos hcode]
          obtain rfl := compNo_of_vesselIs hv
          unfold State.creditSprinkle
          split
          · next m b hat =>
            refine if_neg fun hg => ?_
            rcases h with h | h | h | ⟨c', h, hg'⟩
            · exact h hcode
            · exact absurd hg.2 (Int.not_lt.2 h)
            · exact h c ho
            · obtain hcc := Option.some.inj (h.symm.trans ho)
              exact hg' m b (hcc ▸ hat) hg.1
          · rfl
        · exact if_neg hcode
      · rfl
  · rw [howner]
    dsimp only
    rw [vesselIs_compNo]
    dsimp only
    rw [if_pos hcode]
    unfold State.creditSprinkle
    rw [hat]
    dsimp only
    rw [if_pos ⟨hstate, harg⟩]
    exact State.onSlot_congr hslot (Batch.sprinkle_eq hacct _)

/-! ## Telegrams and windows (R161, R162, R180) -/

/-- What a CONFIRM comes to whose taking leaves the state u: outside the window of its station that is all, and inside it the
window then goes on as at the end of the wait, with the next command or none. -/
def State.ConfirmGives (s : State) (src tag : Byte) (a : Bool) (u : State) : Prop :=
  ((∀ w rest, s.field.phase ≠ .window src.toNat w rest) → exec (.confirmTelegram src tag a) s = .next u) ∧
  (∀ w rest, s.field.phase = .window src.toNat w rest → u.work = [] → u.field.phase = s.field.phase →
    exec (.confirmTelegram src tag a) s = exec .commandWaitExpiry u) ∧
  (∀ w, s.field.phase = .window src.toNat w [] → u.work = [] → (∀ q ∈ u.filter.queue, q.flight = none) →
    exec (.confirmTelegram src tag a) s = .next (u.onField fun f => { f with busy := false, phase := .idle })) ∧
  (∀ w (c : SendCmd) rest, s.field.phase = .window src.toNat w (c :: rest) → u.work = [] → c.station ≠ 0 →
    exec (.confirmTelegram src tag a) s = .next ((u.putField c.station tCOMMAND c.payload).onField fun f =>
      { f with phase := .window c.station (u.windowOf c.station) rest }))

/-- A command that waits for its CONFIRM is put on the line, and its wait begins. -/
theorem State.sendCommands_waits {s : State} {c : SendCmd} (h : c.station ≠ 0) (rest : List SendCmd) :
    s.sendCommands (c :: rest) = (s.putField c.station tCOMMAND c.payload).onField fun f =>
      { f with phase := .window c.station (s.windowOf c.station) rest } := by
  unfold State.sendCommands
  exact if_neg h

theorem State.confirmGives {s u : State} {src tag : Byte} {a : Bool} (h : (s.takeConfirm src.toNat tag.toNat a).settle = u) :
    s.ConfirmGives src tag a u := by
  have hexec : exec (.confirmTelegram src tag a) s = .next (s.confirmArrives src.toNat tag.toNat a).settle := rfl
  have hin : ∀ w rest, s.field.phase = .window src.toNat w rest →
      exec (.confirmTelegram src tag a) s = .next (u.sendCommands rest).settle := fun w rest hw => by
    rw [hexec]
    unfold State.confirmArrives
    rw [hw]
    dsimp only
    rw [if_pos rfl, h]
  refine ⟨fun hno => ?_, fun w rest hw _ hp => ?_, fun w hw hwork hq => ?_, fun w c rest hw hwork hc => ?_⟩
  · rw [hexec]
    unfold State.confirmArrives
    split
    · next st w rest hw => rw [if_neg fun hst : st = src.toNat => hno w rest (hst ▸ hw), h]
    · rw [h]
    · rw [h]
  · have hwait : exec .commandWaitExpiry u = .next u.commandExpires.settle := rfl
    rw [hin w rest hw, hwait]
    unfold State.commandExpires
    rw [hp, hw]
  · rw [hin w [] hw]
    unfold State.sendCommands State.endWindow
    rw [State.settleFlights_none hq]
    exact congrArg Host.Outcome.next (State.settle_of_idle hwork)
  · rw [hin w _ hw, State.sendCommands_waits hc]
    exact congrArg Host.Outcome.next (State.settle_of_idle hwork)

/-- A CONFIRM whose taking sets off nothing. -/
theorem State.confirmGives_still {s u : State} {src tag : Byte} {a : Bool} (h : s.takeConfirm src.toNat tag.toNat a = u)
    (hw : u.work = []) : s.ConfirmGives src tag a u :=
  State.confirmGives (by rw [h]; exact State.settle_of_idle hw)

theorem State.takeReport_vessel_failed (s : State) (v : Fin 12) (n : Nat) :
    s.takeReport .failed (.vessel v) n = s.vesselFault v .commandFailed := by
  unfold State.takeReport
  exact if_pos rfl

theorem State.takeReport_vessel_accepted (s : State) (x : Int) (v : Fin 12) (n : Nat) : s.takeReport (.accepted x) (.vessel v) n = s := by
  unfold State.takeReport
  exact if_neg fun h => nomatch h

/-- The first fault of a vessel in MANUAL, or of a compartment or kiln in AUTO, where nothing waits. -/
theorem State.vesselFault_holds {s : State} {v : Fin 12} (hwait : s.filter.waiting = [])
    (h : (s.vessel v).mode = .manual ∨ ((s.vessel v).mode = .auto ∧ 4 ≤ v.val)) (c : FaultCode) :
    s.vesselFault v c = ((s.onVessel v fun y => { y with mode := .hold, fault := some (y.fault.getD c) }).post .fault .vessel
      v.val c.code (s.phaseIndex v)).post .mode .vessel v.val 3 (s.vessel v).mode.code := by
  have hleave : ∀ u : State, u.filter.waiting = [] → 4 ≤ v.val → u.leaveAuto v = u := fun u hu h4 => by
    unfold State.leaveAuto
    split
    · next i hi =>
      rw [steepNo_of_vesselIs hi] at h4
      exact absurd h4 (Nat.not_le.2 i.isLt)
    · exact State.discardWaiting_empty hu v
    · exact State.discardWaiting_empty hu v
  unfold State.vesselFault
  dsimp only
  rcases h with hm | ⟨hm, h4⟩
  · rw [hm]
    rfl
  · rw [hm]
    dsimp only
    refine (hleave _ ?_ h4).trans rfl
    unfold State.postVessel State.postFault State.postVessel
    rw [State.post_filter, State.post_filter]
    exact hwait

theorem State.Credits.filter {s u : State} {e : QEntry} {x : Flight} (h : s.Credits e x u) : u.filter = s.filter := by
  rcases h with ⟨rfl, -⟩ | ⟨c, m, b, d, -, -, -, -, -, -, -, rfl⟩ <;> rfl
theorem State.Credits.work {s u : State} {e : QEntry} {x : Flight} (h : s.Credits e x u) : u.work = s.work := by
  rcases h with ⟨rfl, -⟩ | ⟨c, m, b, d, -, -, -, -, -, -, -, rfl⟩ <;> rfl

theorem State.dropEntry_waiting (s : State) (st code : Nat) : (s.dropEntry st code).filter.waiting = s.filter.waiting := rfl

section

variable {s : State} {src tag : Byte} {e : QEntry} {x : Flight}
  (hm : s.filter.matching src.toNat tag.toNat = some (e, x)) (hwait : s.filter.waiting = [])
include hm

theorem State.takeConfirm_replaced (hr : x.replaced = true) (a : Bool) :
    s.takeConfirm src.toNat tag.toNat a = s.keepOutcome e x a := by
  unfold State.takeConfirm
  rw [hm]
  exact if_pos hr

include hwait

/-- An ACCEPTED delivery is credited, leaves the queue, and is told to its block. -/
theorem State.takeConfirm_accepted (hr : x.replaced = false) {u : State} (hu : s.Credits e x u) :
    s.takeConfirm src.toNat tag.toNat true =
      (u.dropEntry e.offer.station e.offer.code).tell x.answer (.accepted x.arg) e.offer.code := by
  have hgone : ((u.dropEntry e.offer.station e.offer.code).tell x.answer (.accepted x.arg) e.offer.code).reoffer =
      (u.dropEntry e.offer.station e.offer.code).tell x.answer (.accepted x.arg) e.offer.code := by
    refine State.reoffer_none ?_
    unfold State.tell
    split <;> exact (congrArg Filter.waiting hu.filter).trans hwait
  have hswap : (u.tell x.answer (.accepted x.arg) e.offer.code).dropEntry e.offer.station e.offer.code =
      (u.dropEntry e.offer.station e.offer.code).tell x.answer (.accepted x.arg) e.offer.code := by
    unfold State.tell
    split <;> rfl
  unfold State.takeConfirm
  rw [hm]
  dsimp only
  rw [hr, if_neg Bool.false_ne_true, if_pos rfl]
  unfold State.deliveryAccepted
  dsimp only
  rw [State.creditDelivered_credits hu, hswap, hgone]

theorem State.takeConfirm_refused (hr : x.replaced = false) {p : Nat} (hp : x.answer = .plant p) :
    s.takeConfirm src.toNat tag.toNat false =
      (s.dropEntry e.offer.station e.offer.code).refuse e.offer.station e.offer.code p .stationRejected 0 := by
  unfold State.takeConfirm
  rw [hm]
  dsimp only
  rw [hr, if_neg Bool.false_ne_true, if_neg Bool.false_ne_true]
  unfold State.deliveryFailed
  rw [hp]
  exact State.reoffer_none ((congrArg Filter.waiting (State.refuse_filter ..)).trans hwait)

omit hwait in
theorem State.takeConfirm_again (hr : x.replaced = false) {p : Purpose} {n : Nat} (hp : x.answer = .block p n) (ht : e.tries < 3) :
    s.takeConfirm src.toNat tag.toNat false = s.onEntry e.offer.station e.offer.code fun q => { q with
      tries := q.tries + 1, flight := none } := by
  unfold State.takeConfirm
  rw [hm]
  dsimp only
  rw [hr, if_neg Bool.false_ne_true, if_neg Bool.false_ne_true]
  unfold State.deliveryFailed
  rw [hp]
  exact if_pos ht

theorem State.takeConfirm_failed (hr : x.replaced = false) {p : Purpose} {n : Nat} (hp : x.answer = .block p n) (ht : 3 ≤ e.tries) :
    s.takeConfirm src.toNat tag.toNat false =
      (s.dropEntry e.offer.station e.offer.code).emit (.report .failed p n e.offer.code) := by
  unfold State.takeConfirm
  rw [hm]
  dsimp only
  rw [hr, if_neg Bool.false_ne_true, if_neg Bool.false_ne_true]
  unfold State.deliveryFailed
  rw [hp]
  dsimp only
  rw [if_neg (Nat.not_lt.2 ht)]
  exact State.reoffer_none hwait

end

/-! ## The end of a wait -/

theorem State.exec_commandWaitExpiry {s : State} {st w : Nat} {rest : List SendCmd} (h : s.field.phase = .window st w rest) :
    exec .commandWaitExpiry s = .next (s.sendCommands rest).settle := by
  have hrun : exec .commandWaitExpiry s = .next s.commandExpires.settle := rfl
  rw [hrun]
  unfold State.commandExpires
  rw [h]

/-- A wait with no further command to send ends the window. -/
theorem State.exec_window_ends {s u : State} {st w : Nat} (h : s.field.phase = .window st w []) (hu : s.settleFlights = u) :
    exec .commandWaitExpiry s = .next (u.onField fun f => { f with busy := false, phase := .idle }).settle := by
  rw [State.exec_commandWaitExpiry h]
  unfold State.sendCommands State.endWindow
  rw [hu]

theorem State.exec_window_ends_still {s u : State} {st w : Nat} (h : s.field.phase = .window st w []) (hu : s.settleFlights = u)
    (hw : u.work = []) :
    exec .commandWaitExpiry s = .next (u.onField fun f => { f with busy := false, phase := .idle }) := by
  rw [State.exec_window_ends h hu]
  exact congrArg Host.Outcome.next (State.settle_of_idle hw)

/-- A broadcast waits for no CONFIRM. -/
theorem State.sendCommands_broadcast {s : State} {b : SendCmd} (h : b.station = 0) (rest : List SendCmd) :
    s.sendCommands (b :: rest) = (s.putField 0 tCOMMAND b.payload).sendCommands rest := by
  conv_lhs => unfold State.sendCommands
  rw [h]
  exact if_pos rfl

theorem QEntry.keyed_self (e : QEntry) : e.keyed e.offer.station e.offer.code = true := by simp [QEntry.keyed]

section

variable {s : State} {e : QEntry} {x : Flight} (hq : s.filter.queue = [e]) (he : e.flight = some x)
include hq he

theorem State.settleFlights_one : s.settleFlights = if x.replaced then s.reportOutcome e x else s.deliveryFailed e x .noConfirm := by
  have hentry : s.filter.entry e.offer.station e.offer.code = some e := by
    unfold Filter.entry
    rw [hq, List.find?_cons, QEntry.keyed_self]
  unfold State.settleFlights
  rw [hq, List.filter_cons, if_pos (by rw [he]; rfl), List.filter_nil, List.foldl_cons, List.foldl_nil, hentry]
  dsimp only
  rw [he]

omit he in
theorem State.dropEntry_one : s.dropEntry e.offer.station e.offer.code = s.onFilter fun f => { f with queue := [] } := by
  unfold State.dropEntry
  refine State.onFilter_congr ?_
  rw [hq, List.filter_cons, QEntry.keyed_self]
  rfl

omit he in
theorem State.onEntry_one (g : QEntry → QEntry) : s.onEntry e.offer.station e.offer.code g =
    s.onFilter fun f => { f with queue := [g e] } := by
  unfold State.onEntry
  refine State.onFilter_congr ?_
  rw [hq, List.map_cons, List.map_nil, if_pos (QEntry.keyed_self e)]

end

theorem State.deliveryFailed_plant_one {s : State} {e : QEntry} {x : Flight} (hq : s.filter.queue = [e])
    (hwait : s.filter.waiting = []) {p : Nat} (hp : x.answer = .plant p) (r : Reason) :
    s.deliveryFailed e x r = (s.onFilter fun f => { f with queue := [] }).refuse e.offer.station e.offer.code p r 0 := by
  unfold State.deliveryFailed
  rw [hp]
  dsimp only
  rw [State.dropEntry_one hq]
  exact State.reoffer_none ((congrArg Filter.waiting (State.refuse_filter ..)).trans hwait)

/-- Settles O16: what each CONFIRM comes to, and then what the end of a wait sends or settles. -/
theorem commandsAreConfirmedOrTimeOut : Obligations.CommandsAreConfirmedOrTimeOut := by
  refine ⟨?_, ?_⟩
  · intro s src tag hw gives
    refine ⟨fun hm a => ?_, fun e x hm hwait => ?_⟩
    case refine_1 =>
      refine State.confirmGives_still ?_ hw
      unfold State.takeConfirm
      rw [hm]
    intro gone kept credited
    refine ⟨fun hr => ⟨?_, fun u hu => ?_⟩, fun p hr hp => ⟨fun u hu => ?_, ?_⟩,
      fun p n hr hp => ⟨fun u hu => ?_, fun ht => ?_, fun ht => ?_⟩⟩
    · exact State.confirmGives_still (State.takeConfirm_replaced hm hr false) hw
    · refine State.confirmGives_still ((State.takeConfirm_replaced hm hr true).trans ?_) (State.Credits.work hu |>.trans hw)
      unfold State.keepOutcome
      rw [if_pos rfl, State.creditDelivered_credits hu]
    · refine State.confirmGives_still ((State.takeConfirm_accepted hm hwait hr hu).trans ?_) (State.Credits.work hu |>.trans hw)
      rw [hp]
      rfl
    · exact State.confirmGives_still (State.takeConfirm_refused hm hwait hr hp) ((State.refuse_work ..).trans hw)
    · have htake : s.takeConfirm src.toNat tag.toNat true = (u.dropEntry e.offer.station e.offer.code).emit
          (.report (.accepted x.arg) p n e.offer.code) := by
        rw [State.takeConfirm_accepted hm hwait hr hu, hp]
        rfl
      refine ⟨State.confirmGives (congrArg State.settle htake), ?_⟩
      rintro v rfl
      have htaken : (u.dropEntry e.offer.station e.offer.code).takeEvent (.report (.accepted x.arg) (.vessel v) n e.offer.code) =
          u.dropEntry e.offer.station e.offer.code := State.takeReport_vessel_accepted _ x.arg v n
      have hwork : (u.dropEntry e.offer.station e.offer.code).work = [] := (State.Credits.work hu).trans hw
      refine State.confirmGives ?_
      rw [htake, State.settle_emit hwork (by rw [htaken]; exact hwork), htaken]
    · exact State.confirmGives_still (State.takeConfirm_again hm hr hp ht) hw
    · have htake := State.takeConfirm_failed hm hwait hr hp ht
      refine ⟨State.confirmGives (congrArg State.settle htake), ?_⟩
      rintro v rfl hmode
      have htaken : gone.takeEvent (.report .failed (.vessel v) n e.offer.code) = gone.vesselFault v .commandFailed :=
        State.takeReport_vessel_failed gone v n
      refine State.confirmGives ?_
      rw [htake, State.settle_emit (s := gone) hw, htaken, State.vesselFault_holds (s := gone) hwait hmode]
      · rfl
      · rw [htaken, State.vesselFault_holds (s := gone) hwait hmode, State.post_work, State.post_work]
        exact hw
  · intro s st w hw
    refine ⟨fun c rest hph hc => ?_, fun b c rest hph hb hc => ?_, fun e x hph hq hwait he => ?_⟩
    · rw [State.exec_commandWaitExpiry hph, State.sendCommands_waits hc]
      exact congrArg Host.Outcome.next (State.settle_of_idle hw)
    · rw [State.exec_commandWaitExpiry hph, State.sendCommands_broadcast hb, State.sendCommands_waits hc]
      exact congrArg Host.Outcome.next (State.settle_of_idle hw)
    · intro left ends back
      have hfails : x.replaced = false → s.settleFlights = s.deliveryFailed e x .noConfirm := fun hr => by
        rw [State.settleFlights_one hq he, hr]
        rfl
      have hreports : x.replaced = true → s.settleFlights = s.reportOutcome e x := fun hr => by
        rw [State.settleFlights_one hq he, hr]
        rfl
      refine ⟨fun p hr hp => ?_, fun p n hr hp => ⟨fun ht => ?_, fun ht => ?_⟩, fun p hr hp => ⟨fun ho => ?_, fun ho => ?_, fun ho => ?_⟩, fun p n hr hp => ?_⟩
      · exact State.exec_window_ends_still hph ((hfails hr).trans (State.deliveryFailed_plant_one hq hwait hp _)) ((State.refuse_work ..).trans hw)
      · refine State.exec_window_ends_still hph ((hfails hr).trans ?_) hw
        unfold State.deliveryFailed
        rw [hp]
        dsimp only
        rw [if_pos ht, State.onEntry_one hq]
      · refine State.exec_window_ends hph ((hfails hr).trans ?_)
        unfold State.deliveryFailed
        rw [hp]
        dsimp only
        rw [if_neg (Nat.not_lt.2 ht), State.dropEntry_one hq]
        exact State.reoffer_none hwait
      · refine State.exec_window_ends_still hph ((hreports hr).trans ?_) hw
        unfold State.reportOutcome
        dsimp only
        rw [ho, hp, State.onEntry_one hq]
        rfl
      · refine State.exec_window_ends_still hph ((hreports hr).trans ?_) ((State.refuse_work ..).trans hw)
        unfold State.reportOutcome
        dsimp only
        rw [ho, hp, State.onEntry_one hq]
        rfl
      · refine State.exec_window_ends_still hph ((hreports hr).trans ?_) ((State.refuse_work ..).trans hw)
        unfold State.reportOutcome
        dsimp only
        rw [ho, hp, State.onEntry_one hq]
        rfl
      · refine State.exec_window_ends hph ((hreports hr).trans ?_)
        unfold State.reportOutcome
        dsimp only
        rw [hp, State.onEntry_one hq]
        rcases x.outcome with _ | _ | _ <;> rfl

end Sys2Proof.Machine
end

section
/-! PROOFS. The turner arbiter's grants, arrivals, homing and clearing (R75 to R79, R85 to R87). -/

namespace Sys2Proof.Machine

-- One declaration after the other: side by side, their stacks are more than the check's bound on memory.
set_option Elab.async false

/-! ## The arbiter (R76, R77) -/

/-- With no demand that may be granted the arbiter grants nothing. -/
theorem State.turnerArbiter_of_none {s : State} (h : ∀ c, s.grantable c = none) : s.turnerArbiter = s := by
  simp [State.turnerArbiter, State.pendingDemands, allComps, h]

/-- One compartment's demand joins the arbiter's list where it may be granted. -/
def State.addDemand (s : State) (l : List (Fin 6 × Demand)) (c : Fin 6) : List (Fin 6 × Demand) :=
  match s.grantable c with
  | some d => insertDemand l (c, d)
  | none => l

theorem State.foldl_addDemand (s : State) {ks : List (Fin 6)} (h : ∀ k ∈ ks, s.grantable k = none) (l : List (Fin 6 × Demand)) :
    ks.foldl s.addDemand l = l := by
  induction ks with
  | nil => rfl
  | cons k ks ih =>
    have hk : s.addDemand l k = l := by
      unfold State.addDemand
      rw [h k List.mem_cons_self]
    rw [List.foldl_cons, hk]
    exact ih fun k' hk' => h k' (List.mem_cons_of_mem _ hk')

theorem allComps_split (c : Fin 6) : ∃ a b, allComps = a ++ c :: b ∧ c ∉ a ∧ c ∉ b :=
  ⟨allComps.take c.val, allComps.drop (c.val + 1), by revert c; decide⟩

/-- The one demand that may be granted goes to the turner that is chosen for it. -/
theorem State.turnerArbiter_grants {s : State} {c : Fin 6} {d : Demand} (hc : s.grantable c = some d)
    (ho : ∀ k, k ≠ c → s.grantable k = none) {t : Fin 2} (ht : s.chooseTurner (crossway c) = some t) :
    s.turnerArbiter = s.grantTurner c t := by
  have hpending : s.pendingDemands = [(c, d)] := by
    obtain ⟨a, b, hab, ha, hb⟩ : ∃ a b, allComps = a ++ c :: b ∧ c ∉ a ∧ c ∉ b := allComps_split c
    have hfold : s.pendingDemands = allComps.foldl s.addDemand [] := rfl
    rw [hfold, hab, List.foldl_append, s.foldl_addDemand fun k hk => ho k fun h => ha (h ▸ hk), List.foldl_cons,
      s.foldl_addDemand fun k hk => ho k fun h => hb (h ▸ hk)]
    unfold State.addDemand
    rw [hc]
    rfl
  unfold State.turnerArbiter
  rw [hpending, List.foldl_cons, List.foldl_nil, ht]

/-- The route of turner t to position p is clear of turner o (R77). -/
def Turner.ClearOf (o : Turner) (west : Bool) (p : Nat) : Prop :=
  ∃ w, o.position = some w ∧ (if west then p < w else w < p) ∧ ∀ z, o.target = some z → if west then p < z else z < p

theorem State.routeClear_iff (s : State) (t : Fin 2) (p : Nat) :
    s.routeClear t p = true ↔ (s.turner (other t)).ClearOf (t = 0) p := by
  unfold State.routeClear Turner.ClearOf
  generalize s.turner (other t) = o
  dsimp only
  cases hp : o.position with
  | none => simp
  | some w => by_cases ht : t = 0 <;> cases o.target <;> simp [ht]

theorem State.reach_some {s : State} {t : Fin 2} {p a : Nat} : s.reach t p = some a ↔
    (s.turner t).state = .idle ∧ (s.turner (other t)).ClearOf (t = 0) p ∧
      ∃ q, (s.turner t).position = some q ∧ max p q - min p q = a := by
  rw [← State.routeClear_iff]
  unfold State.reach
  split
  · next q hs hq =>
    rw [hs, hq]
    split
    · next h => simp [h]
    · next h => simp [h]
  · next h =>
    simp only [reduceCtorEq, false_iff]
    rintro ⟨hs, -, q, hq, -⟩
    exact h q hs hq

theorem State.chooseTurner_eq {s : State} {t : Fin 2} {p a : Nat} (h : s.reach t p = some a)
    (ho : ∀ b, s.reach (other t) p = some b → a < b ∨ (a = b ∧ t = 0)) : s.chooseTurner p = some t := by
  have ht : t = 0 ∨ t = 1 := by omega
  unfold State.chooseTurner
  rcases ht with rfl | rfl
  · have ho' : ∀ b, s.reach 1 p = some b → ¬ b < a := fun b hb => by
      rcases ho b hb with h | h <;> omega
    rw [h]
    cases hb : s.reach 1 p with
    | none => rfl
    | some b => exact if_neg (ho' b hb)
  · have ho' : ∀ b, s.reach 0 p = some b → a < b := fun b hb => by
      rcases ho b hb with h | h
      · exact h
      · exact absurd h.2 (by decide)
    rw [h]
    cases hb : s.reach 0 p with
    | none => rfl
    | some b => exact if_pos (ho' b hb)

/-! ## Moves and passes (R75, R79) -/

theorem State.moveTo_room {s : State} {t : Fin 2} {g : TurnerCfg} (hg : s.turnerCfg t = some g)
    (h : s.roomFor g.drive cMOVETO .sequencer = true) (p : Nat) :
    s.moveTo t p = (s.queued g.drive cMOVETO p .sequencer (.drive t)).onTurner t fun x => { x with
      moveSerial := some s.filter.serial, moveAccepted := false, moveTimer := some (g.moveLimit * 10) } := by
  unfold State.moveTo
  dsimp only
  rw [hg]
  exact State.sendArg_room (s := s.onTurner t fun x => { x with
    moveSerial := some s.filter.serial, moveAccepted := false, moveTimer := some (g.moveLimit * 10) }) h (by decide) rfl (by decide)

/-- A turner's pass begins, but for the SPRINKLE. -/
def State.passBegins (s : State) (t : Fin 2) (c : Fin 6) (g : TurnerCfg) (k : CompCfg) : State :=
  ((s.queued g.drive cFORWARD s.noArg .sequencer (.drive t)).onTurner t fun z => { z with
    state := .passOut, passLength := k.length, passTimer := some (g.passLimit * 600) }).post .turner .turner t.val 4
      (compNo c).val

theorem Turner.noticeValue_passOut {x : Turner} {c : Fin 6} (ha : x.assigned = some c) :
    ({ x with state := .passOut } : Turner).noticeValue = (compNo c).val := by
  unfold Turner.noticeValue
  dsimp only
  rw [ha]

theorem Turner.noticeValue_moving {x : Turner} {c : Fin 6} (ha : x.assigned = some c) :
    ({ x with state := .moving } : Turner).noticeValue = (compNo c).val := by
  unfold Turner.noticeValue
  dsimp only
  rw [ha]

theorem State.startPass_eq {s : State} {t : Fin 2} {c : Fin 6} {g : TurnerCfg} {k : CompCfg} (hg : s.turnerCfg t = some g)
    (hk : s.compCfg c = some k) (h : s.roomFor g.drive cFORWARD .sequencer = true) (ha : (s.turner t).assigned = some c) :
    s.startPass t c = (s.passBegins t c g k).offerSprinkle c := by
  let f : Turner → Turner := fun x => { x with
    passLength := k.length
    passTimer := some (g.passLimit * 600) }
  have hto : (((s.onTurner t f).drive t cFORWARD).turnerTo t fun x => { x with state := .passOut }) = s.passBegins t c g k := by
    rw [State.drive_room (s := s.onTurner t f) hg h (by decide) rfl, State.turnerTo_eq]
    have hassigned : ((((s.onTurner t f).queued g.drive cFORWARD (s.onTurner t f).noArg .sequencer (.drive t))).turner t).assigned =
        some c := (congrArg Turner.assigned (State.onTurner_turner_same s t f)).trans ha
    rw [Turner.noticeValue_passOut hassigned]
    unfold State.passBegins
    rw [← State.onTurner_onTurner (f := f) (g := fun x => { x with state := .passOut })]
    rfl
  unfold State.startPass
  rw [hg, hk]
  exact congrArg (State.offerSprinkle · c) hto

/-! ## SPRINKLE (R79) -/

/-- A pass start offers no SPRINKLE: no sprinkler, none in the stage, no moisture, or one at the ceiling. -/
theorem State.offerSprinkle_none {s : State} {c : Fin 6} {k : CompCfg} (hk : s.compCfg c = some k)
    (h : (s.comp c).fields = none ∨ s.moistureAt (compNo c) = none ∨ k.sprinkler = none ∨ ∃ f m, (s.comp c).fields = some f ∧
      s.moistureAt (compNo c) = some m ∧ (f.litres = 0 ∨ f.ceiling ≤ m)) : s.offerSprinkle c = s := by
  unfold State.offerSprinkle
  split
  · next cfg f m hcfg hf hm =>
    obtain rfl := Option.some.inj (hk.symm.trans hcfg)
    split
    · next hgo =>
      rcases h with h | h | h | ⟨f', m', h1, h2, h3⟩
      · exact nomatch (h.symm.trans hf)
      · exact nomatch (h.symm.trans hm)
      · rw [h]
        rfl
      · obtain rfl := Option.some.inj (h1.symm.trans hf)
        obtain rfl := Option.some.inj (h2.symm.trans hm)
        rcases h3 with h3 | h3
        · exact absurd h3 hgo.2.1
        · exact absurd hgo.2.2.1 (Nat.not_lt.2 h3)
    · rfl
  · rfl

theorem State.offerSprinkle_some {s : State} {c : Fin 6} {k : CompCfg} (hk : s.compCfg c = some k) {f : GermStage} {m w : Nat}
    (hf : (s.comp c).fields = some f) (hm : s.moistureAt (compNo c) = some m) (hs : k.sprinkler = some w) (hl : f.litres ≠ 0)
    (hc : m < f.ceiling) (hi : (s.comp c).index ≠ 255) (ha : s.compMode c = .auto)
    (hroom : s.roomFor w cSPRINKLE .sequencer = true) :
    s.offerSprinkle c = s.queued w cSPRINKLE f.litres .sequencer (.vessel (compNo c)) := by
  unfold State.offerSprinkle
  rw [hk, hf, hm]
  dsimp only
  rw [if_pos ⟨ha, hl, hc, hi⟩, hs]
  exact State.sendArg_room hroom (by decide) rfl (by decide)

/-- What the start of a pass offers, by what the stage and the moisture ask for. -/
theorem State.startPass_offers {s : State} {t : Fin 2} {c : Fin 6} {g : TurnerCfg} {k : CompCfg} (hg : s.turnerCfg t = some g)
    (hk : s.compCfg c = some k) (h : s.roomFor g.drive cFORWARD .sequencer = true) (ha : (s.turner t).assigned = some c)
    (hauto : s.compMode c = .auto) :
    (((s.comp c).fields = none ∨ s.moistureAt (compNo c) = none ∨ k.sprinkler = none ∨ (∃ f m, (s.comp c).fields = some f ∧
      s.moistureAt (compNo c) = some m ∧ (f.litres = 0 ∨ f.ceiling ≤ m))) → s.startPass t c = s.passBegins t c g k) ∧
    (∀ f m w, (s.comp c).fields = some f → s.moistureAt (compNo c) = some m → k.sprinkler = some w → f.litres ≠ 0 →
      m < f.ceiling → (s.comp c).index ≠ 255 → s.roomFor w cSPRINKLE .sequencer = true → s.filter.queue.length < 15 →
      s.startPass t c = (s.passBegins t c g k).queued w cSPRINKLE f.litres .sequencer (.vessel (compNo c))) := by
  have hcomp : (s.passBegins t c g k).comp c = s.comp c := State.post_comp ..
  have hcfg : (s.passBegins t c g k).compCfg c = some k := by
    unfold State.compCfg State.passBegins
    rw [State.post_tables]
    exact hk
  have hmoist : (s.passBegins t c g k).moistureAt (compNo c) = s.moistureAt (compNo c) := by
    unfold State.moistureAt State.batchAt State.passBegins
    rw [State.post_batch]
    rfl
  have hmode : (s.passBegins t c g k).compMode c = .auto := by
    unfold State.compMode State.vessel State.passBegins
    rw [State.post_vessels]
    exact hauto
  rw [State.startPass_eq hg hk h ha]
  refine ⟨fun hno => State.offerSprinkle_none hcfg ?_, fun f m w hf hm hs hl hc hi hw hq => ?_⟩
  · rw [hcomp, hmoist]
    exact hno
  · refine State.offerSprinkle_some hcfg (by rw [hcomp]; exact hf) (hmoist.trans hm) hs hl hc (by rw [hcomp]; exact hi) hmode ?_
    unfold State.passBegins
    rw [State.roomFor_post]
    exact State.roomFor_queued hw (.inr (by decide)) hq ..

/-! ## Grants (R70, R77) -/

/-- A demand that is raised in a compartment without one is granted to the turner that is chosen for it. -/
theorem State.raiseDemand_grants {s : State} {c : Fin 6} {t : Fin 2} {kind : DemandKind} (hp : (s.comp c).phase = .germinating)
    (hb : s.compBlind c = false) (hm : s.compMode c = .auto) (hd : (s.comp c).demand = none)
    (ho : ∀ d, d ≠ c → (s.comp d).demand = none) (ht : s.chooseTurner (crossway c) = some t) :
    s.raiseDemand c kind = (s.onComp c fun x => { x with demand := some { kind := kind, time := s.timeNow } }).grantTurner c t := by
  let d : Demand := { kind := kind, time := s.timeNow }
  let u : State := s.onComp c fun x => { x with demand := some d }
  have hu : u.comp c = { s.comp c with demand := some d } := State.onComp_comp_same ..
  have hgrant : u.grantable c = some d := by
    unfold State.grantable
    rw [hu]
    exact if_pos ⟨rfl, hp, hm⟩
  have hothers : ∀ k, k ≠ c → u.grantable k = none := fun k hk => by
    unfold State.grantable
    rw [show u.comp k = s.comp k from State.onComp_comp_ne _ hk _, ho k hk]
  unfold State.raiseDemand
  rw [if_pos ⟨hp, by rw [hb]; rfl⟩, hd]
  exact State.turnerArbiter_grants hgrant hothers ht

theorem onBank_comm {α : Type} {n : Nat} (v : Vector α n) {i j : Fin n} (h : i ≠ j) (f g : α → α) :
    onBank (onBank v i f) j g = onBank (onBank v j g) i f := by
  have hij : i.val ≠ j.val := fun e => h (Fin.ext e)
  ext k hk
  simp only [onBank, Fin.getElem_fin, Vector.getElem_set]
  split <;> split <;> simp_all

theorem State.onTurner_comm (s : State) {i j : Fin 2} (h : i ≠ j) (f g : Turner → Turner) :
    (s.onTurner i f).onTurner j g = (s.onTurner j g).onTurner i f := by
  unfold State.onTurner
  rw [onBank_comm _ h]

/-- A grant to a turner that stands elsewhere sends it to the compartment. -/
theorem State.grantTurner_moves {s : State} {c : Fin 6} {t : Fin 2} {g : TurnerCfg} (hg : s.turnerCfg t = some g)
    (h : s.roomFor g.drive cMOVETO .sequencer = true) (hp : (s.turner t).position ≠ some (crossway c)) {u : State}
    (hu : ((s.onComp c fun x => { x with demand := x.demand.map fun d => { d with turner := some t } }).onTurner t
      fun x => { x with assigned := some c }) = u) :
    s.grantTurner c t = ((u.queued g.drive cMOVETO (crossway c) .sequencer (.drive t)).onTurner t fun z => { z with
      state := .moving, target := some (crossway c), moveSerial := some s.filter.serial, moveAccepted := false
      moveTimer := some (g.moveLimit * 10) }).post .turner .turner t.val 3 (compNo c).val := by
  let f1 : Turner → Turner := fun x => { x with target := some (crossway c) }
  let f2 : Turner → Turner := fun x => { x with
    moveSerial := some s.filter.serial, moveAccepted := false, moveTimer := some (g.moveLimit * 10) }
  let f3 : Turner → Turner := fun x => { x with state := .moving }
  have ha : (u.turner t).assigned = some c := by
    rw [← hu, State.onTurner_turner_same]
  have hg' : u.turnerCfg t = some g := by rw [← hu]; exact hg
  have h' : u.roomFor g.drive cMOVETO .sequencer = true := by rw [← hu]; exact h
  have hserial : u.filter.serial = s.filter.serial := by rw [← hu]; rfl
  have hmove : (u.onTurner t f1).moveTo t (crossway c) =
      ((u.queued g.drive cMOVETO (crossway c) .sequencer (.drive t)).onTurner t f1).onTurner t f2 := by
    rw [State.moveTo_room (s := u.onTurner t f1) hg' h', State.onTurner_filter, hserial]
    rfl
  unfold State.grantTurner
  dsimp only
  rw [if_neg hp, hu, hmove, State.turnerTo_eq, State.onTurner_onTurner, State.onTurner_onTurner, State.onTurner_turner_same,
    Turner.noticeValue_moving (c := c)]
  · rfl
  · exact (congrArg Turner.assigned (State.onTurner_turner_same u t f1)).trans ha

/-! ## Arrivals and reports (R75, R78, R86) -/

theorem State.deliver_turnerState {s : State} {t : Fin 2} {n : Nat} {e : MpEntry} (ho : e.owner = .turner t)
    (hr : e.role = .turnerState) (hn : s.mpOf (.turner t) .turnerState = some n) (v : MpValue) :
    s.deliver n e v = s.turnerReport t v.val := by
  unfold State.deliver
  rw [ho, hr, if_neg (fun h => h hn)]

theorem State.turnerReport_fault {s : State} {t : Fin 2} (hs : (s.turner t).state = .fault) (v : Int) :
    s.turnerReport t v = s.onTurner t fun y => { y with faultReport := some v } := by
  unfold State.turnerReport
  exact if_pos hs

/-- A MOVING turner's report has no effect before the MOVE_TO is confirmed, or away from the target. -/
theorem State.turnerReport_moving {s : State} {t : Fin 2} {v : Int} (hs : (s.turner t).state = .moving) (hv : v ≠ 11)
    (h : (∀ a, (s.turner t).target = some a → v ≠ a) ∨ (s.turner t).moveAccepted = false) : s.turnerReport t v = s := by
  unfold State.turnerReport
  dsimp only
  rw [hs, if_neg (by decide)]
  split
  · next hrange =>
    rw [if_neg, if_neg (by simp), if_neg (by simp)]
    rintro ⟨-, htg, hacc⟩
    rcases h with h | h
    · exact h _ htg (Int.toNat_of_nonneg hrange.1).symm
    · exact Bool.noConfusion (h.symm.trans hacc)
  · rfl

theorem State.turnerReport_arrives {s : State} {t : Fin 2} {v : Int} (hs : (s.turner t).state = .moving) (h0 : 0 ≤ v) (h7 : v ≤ 7)
    (htg : (s.turner t).target = some v.toNat) (hacc : (s.turner t).moveAccepted = true) :
    s.turnerReport t v = s.turnerArrives t := by
  unfold State.turnerReport
  dsimp only
  rw [if_neg (by rw [hs]; decide), if_pos ⟨h0, h7⟩, if_pos ⟨hs, htg, hacc⟩]

theorem State.turnerReport_homes {s : State} {t : Fin 2} {v : Int} (hs : (s.turner t).state = .homing) (h0 : 0 ≤ v) (h7 : v ≤ 7)
    (htg : (s.turner t).target = some v.toNat) (hacc : (s.turner t).moveAccepted = true) :
    s.turnerReport t v = s.homingArrives t := by
  unfold State.turnerReport
  dsimp only
  rw [if_neg (by rw [hs]; decide), if_pos ⟨h0, h7⟩, if_neg (by rw [hs]; simp), if_pos ⟨hs, htg, hacc⟩]

theorem State.turnerReport_unbidden {s : State} {t : Fin 2} {v : Int} (hs : (s.turner t).state = .idle) (h0 : 0 ≤ v) (h7 : v ≤ 7)
    (hp : (s.turner t).position ≠ some v.toNat) : s.turnerReport t v = s.turnerFault t .unbiddenMove := by
  unfold State.turnerReport
  dsimp only
  rw [if_neg (by rw [hs]; decide), if_pos ⟨h0, h7⟩, if_neg (by rw [hs]; simp), if_neg (by rw [hs]; simp), if_pos ⟨hs, hp⟩]

theorem State.grantable_of_no_demand {s : State} {c : Fin 6} (h : (s.comp c).demand = none) : s.grantable c = none := by
  unfold State.grantable
  rw [h]

/-- A demand that a turner has, or of a compartment that does not germinate in AUTO, is not granted. -/
theorem State.grantable_none {s : State} {c : Fin 6} (h : ∀ d, (s.comp c).demand = some d →
    d.turner.isSome = true ∨ (s.comp c).phase ≠ .germinating ∨ s.compMode c ≠ .auto) : s.grantable c = none := by
  unfold State.grantable
  split
  · next d hd =>
    refine if_neg fun hg => ?_
    obtain ⟨hnone, hphase, hmode⟩ := hg
    rcases h d hd with h | h | h
    · rw [Option.isNone_iff_eq_none] at hnone
      rw [hnone] at h
      exact Bool.noConfusion h
    · exact h hphase
    · exact h hmode
  · rfl

section

variable {s : State} {t : Fin 2} {c : Fin 6} {p : Nat} (htg : (s.turner t).target = some p) (ha : (s.turner t).assigned = some c)
  (ho : ∀ d, d ≠ c → (s.comp d).demand = none)
include htg ha ho

/-- A turner that arrives for its demand starts its pass. -/
theorem State.turnerArrives_passes (hp : (s.comp c).phase = .germinating) (hm : s.compMode c = .auto)
    (hd : (s.comp c).demand.any (fun d => d.turner = some t) = true) :
    s.turnerArrives t =
      (s.onTurner t fun z => { z with position := some p, target := none, moveTimer := none }).startPass t c := by
  let f : Turner → Turner := fun x => { x with position := x.target, target := none, moveTimer := none }
  have hat : s.onTurner t f = s.onTurner t fun z => { z with position := some p, target := none, moveTimer := none } :=
    State.onTurner_congr (by rw [← htg])
  have harb : (s.onTurner t f).turnerArbiter = s.onTurner t f := State.turnerArbiter_of_none fun k => by
    rcases eq_or_ne k c with rfl | hk
    · refine State.grantable_none fun d hd' => .inl ?_
      have hd' : (s.comp k).demand = some d := hd'
      rw [hd', Option.any_some, decide_eq_true_eq] at hd
      rw [hd]
      rfl
    · exact State.grantable_of_no_demand (ho k hk)
  unfold State.turnerArrives
  dsimp only
  rw [ha, harb]
  dsimp only
  rw [if_pos ⟨hp, hm, hd⟩, hat]

/-- A turner that arrives where no pass may start is IDLE there, and gives its demand back. -/
theorem State.turnerArrives_idles (h : (s.comp c).phase ≠ .germinating ∨ s.compMode c ≠ .auto) :
    s.turnerArrives t = (((s.onTurner t fun z => { z with
      state := .idle, assigned := none, position := some p, target := none, moveTimer := none }).post .turner .turner t.val 2
        p).onComp c fun z => { z with
          demand := if (s.comp c).phase = .germinating
            then z.demand.map (fun d => if d.turner = some t then { d with turner := none } else d) else none }) := by
  let f : Turner → Turner := fun x => { x with position := x.target, target := none, moveTimer := none }
  have hstuck : ∀ u : State, u.vessels = s.vessels → (∀ d, d ≠ c → (u.comp d).demand = none) →
      (u.comp c).phase = (s.comp c).phase → ((u.comp c).demand = none ∨ (s.comp c).phase ≠ .germinating ∨ s.compMode c ≠ .auto) →
      u.turnerArbiter = u := fun u hv hd hp hc => State.turnerArbiter_of_none fun k => by
    rcases eq_or_ne k c with rfl | hk
    · have hmode : u.compMode k = s.compMode k := by unfold State.compMode State.vessel; rw [hv]
      rcases hc with hc | hc
      · exact State.grantable_of_no_demand hc
      · exact State.grantable_none fun d _ => .inr (by rw [hp, hmode]; exact hc)
    · exact State.grantable_of_no_demand (hd k hk)
  let q : State := (s.onTurner t fun z => { z with
      state := .idle, assigned := none, position := some p, target := none, moveTimer := none }).post .turner .turner t.val 2 p
  have hto : ((s.onTurner t f).turnerTo t fun x => { x with state := .idle, assigned := none }) = q := by
    have hf : (s.onTurner t fun x => { f x with state := .idle, assigned := none }) = s.onTurner t fun z => { z with
        state := .idle, assigned := none, position := some p, target := none, moveTimer := none } :=
      State.onTurner_congr (by rw [← htg])
    rw [State.turnerTo_eq, State.onTurner_onTurner, hf, State.onTurner_turner_same]
    refine congrArg (fun w : Nat => State.post _ .turner .turner t.val 2 w) ?_
    show (s.turner t).target.getD 255 = p
    rw [htg]
    rfl
  have hq : ∀ d, q.comp d = s.comp d := fun d => State.post_comp ..
  unfold State.turnerArrives
  dsimp only
  rw [ha, hstuck (s.onTurner t f) rfl ho rfl (.inr h)]
  dsimp only
  rw [if_neg (fun hgo => h.elim (fun h => h hgo.1) (fun h => h hgo.2.1)), hto]
  have hfinal : ∀ g : Comp → Comp, (∀ x, (g x).phase = x.phase) → ((g (s.comp c)).demand = none ∨ (s.comp c).phase ≠ .germinating ∨
      s.compMode c ≠ .auto) → (q.onComp c g).turnerArbiter = q.onComp c g := fun g hg hd =>
    hstuck _ (State.post_vessels ..) (fun d hd' => by rw [State.onComp_comp_ne _ hd', hq]; exact ho d hd')
      (by rw [State.onComp_comp_same, hg, hq]) (by rw [State.onComp_comp_same, hq]; exact hd)
  rw [State.onTurner_comp]
  split
  · next hp => exact hfinal _ (fun _ => rfl) (.inr h)
  · exact hfinal _ (fun _ => rfl) (.inl rfl)

end

/-- A HOMING turner that arrives at its park begins its back-run. -/
theorem State.homingArrives_eq {s : State} {t : Fin 2} {g : TurnerCfg} {p : Nat} (hg : s.turnerCfg t = some g)
    (h : s.roomFor g.drive cBACK .sequencer = true) (htg : (s.turner t).target = some p) (hd : ∀ d, (s.comp d).demand = none) :
    s.homingArrives t = ((s.onTurner t fun z => { z with position := some p, target := none, moveTimer := none }).onTurner t
      fun z => { z with marker := false, passTimer := some (g.passLimit * 600) }).queued g.drive cBACK s.noArg .sequencer
        (.drive t) := by
  let f : Turner → Turner := fun x => { x with
    position := x.target, target := none, marker := false, moveTimer := none, passTimer := some (g.passLimit * 600) }
  have hf : s.onTurner t f = (s.onTurner t fun z => { z with position := some p, target := none, moveTimer := none }).onTurner t
      fun z => { z with marker := false, passTimer := some (g.passLimit * 600) } := by
    rw [State.onTurner_onTurner]
    exact State.onTurner_congr (by rw [← htg])
  unfold State.homingArrives
  rw [hg]
  show ((s.onTurner t f).drive t cBACK).turnerArbiter = _
  rw [State.drive_room (s := s.onTurner t f) hg h (by decide) rfl, hf]
  exact State.turnerArbiter_of_idle hd

/-! ## TURNER HOME and TURNER CLEAR (R85, R87) -/

/-- A turner enters HOMING, with the MOVE_TO that is offered for it. -/
def State.homes (s : State) (t : Fin 2) (g : TurnerCfg) (p n : Nat) : State :=
  (s.onTurner t fun x => { x with
    state := .homing, position := none, target := some p, moveSerial := some n, moveAccepted := false
    moveTimer := some (g.moveLimit * 10) }).post .turner .turner t.val 1 255

theorem State.queued_serial (s : State) (st code : Nat) (a : Int) (o : Origin) (p : Purpose) :
    (s.queued st code a o p).filter.serial = s.filter.serial + 1 := rfl

theorem State.queued_tables (s : State) (st code : Nat) (a : Int) (o : Origin) (p : Purpose) :
    (s.queued st code a o p).tables = s.tables := rfl

theorem State.queued_onTurner (s : State) (t : Fin 2) (f : Turner → Turner) (st code : Nat) (a : Int) (o : Origin) (p : Purpose) :
    (s.onTurner t f).queued st code a o p = (s.queued st code a o p).onTurner t f := rfl

theorem State.homeTurners_eq {s : State} {g h : TurnerCfg} (hg : s.turnerCfg 0 = some g) (hh : s.turnerCfg 1 = some h)
    (hne : g.drive ≠ h.drive) (hr0 : s.roomFor g.drive cMOVETO .sequencer = true)
    (hr1 : s.roomFor h.drive cMOVETO .sequencer = true) (hlen : s.filter.queue.length < 15) :
    s.homeTurners = (((s.homes 0 g 0 s.filter.serial).homes 1 h 7 (s.filter.serial + 1)).queued g.drive cMOVETO 0 .sequencer
      (.drive 0)).queued h.drive cMOVETO 7 .sequencer (.drive 1) := by
  let begins : Fin 2 → Turner → Turner := fun t x => { x with
    state := .homing, position := none, target := some (park t), moveAccepted := false }
  let sent : TurnerCfg → Nat → Turner → Turner := fun c n x => { x with
    moveSerial := some n, moveAccepted := false, moveTimer := some (c.moveLimit * 10) }
  have hside : ∀ t c n, State.Beside (·.onTurner t (sent c n)) := fun t c n => State.beside_onTurner fun _ => rfl
  have hto : ∀ (u : State) (t : Fin 2), u.turnerTo t (begins t) = (u.onTurner t (begins t)).post .turner .turner t.val 1 255 :=
    fun u t => State.turnerTo_eq ..
  let s1 : State := (((s.onTurner 0 (begins 0)).post .turner .turner 0 1 255).onTurner 1 (begins 1)).post .turner .turner 1 1 255
  have hs1 : s.homeTurners = (s1.moveTo 0 0).moveTo 1 7 := by
    unfold State.homeTurners
    dsimp only [allTurners, List.foldl_cons, List.foldl_nil]
    rw [hto, hto]
    rfl
  have hfilter : s1.filter = s.filter := (State.post_filter ..).trans (State.post_filter ..)
  have htables : s1.tables = s.tables := (State.post_tables ..).trans (State.post_tables ..)
  have hcfg : ∀ t, s1.turnerCfg t = s.turnerCfg t := fun t => by unfold State.turnerCfg; rw [htables]
  have hroom : ∀ st, s1.roomFor st cMOVETO .sequencer = s.roomFor st cMOVETO .sequencer := fun st =>
    (State.roomFor_post ..).trans (State.roomFor_post ..)
  let s2 : State := (s1.queued g.drive cMOVETO 0 .sequencer (.drive 0)).onTurner 0 (sent g s.filter.serial)
  have hmove0 : s1.moveTo 0 0 = s2 := by
    have hmove := State.moveTo_room (s := s1) ((hcfg 0).trans hg) ((hroom _).trans hr0) 0
    rw [hfilter] at hmove
    exact hmove
  have hmove1 : s2.moveTo 1 7 = (s2.queued h.drive cMOVETO 7 .sequencer (.drive 1)).onTurner 1 (sent h (s.filter.serial + 1)) := by
    have hroom2 : s2.roomFor h.drive cMOVETO .sequencer = true :=
      State.roomFor_queued (s := s1) ((hroom _).trans hr1) (.inl hne) (by rw [hfilter]; exact hlen) 0 .sequencer (.drive 0)
    have hserial : s2.filter.serial = s.filter.serial + 1 := by
      rw [State.onTurner_filter, State.queued_serial, hfilter]
    have hcfg2 : s2.turnerCfg 1 = some h := by
      unfold State.turnerCfg
      rw [State.onTurner_tables, State.queued_tables, htables]
      exact hh
    have hmove := State.moveTo_room (s := s2) hcfg2 hroom2 7
    rw [hserial] at hmove
    exact hmove
  have hhomes : (s1.onTurner 0 (sent g s.filter.serial)).onTurner 1 (sent h (s.filter.serial + 1)) =
      (s.homes 0 g 0 s.filter.serial).homes 1 h 7 (s.filter.serial + 1) := by
    rw [(hside 0 g s.filter.serial).post, State.onTurner_comm _ (by decide : (1 : Fin 2) ≠ 0), (hside 0 g s.filter.serial).post,
      (hside 1 h (s.filter.serial + 1)).post, State.onTurner_onTurner, State.onTurner_onTurner]
    rfl
  rw [hs1, hmove0, hmove1, ← hhomes]
  simp only [s2, State.queued_onTurner]

theorem State.turnerClear_eq {s : State} {t : Fin 2} {p : Nat} (hd : ∀ c, (s.comp c).demand = none) :
    let u := s.onTurner t fun x => { x with target := none, assigned := none, cause := none }
    s.turnerClear t p = (if (s.turner t).position.isSome && s.keepsOrder t p
      then (u.onTurner t fun x => { x with position := some p, state := .idle }).post .turner .turner t.val 2 p
      else (u.onTurner t fun x => { x with position := none, state := .unhomed }).post .turner .turner t.val 0 255).emit .scan := by
  intro u
  unfold State.turnerClear
  dsimp only
  rw [State.turnerTo_eq, State.turnerTo_eq, State.turnerArbiter_of_idle]
  · rfl
  · intro c
    rw [State.post_comp]
    exact hd c

theorem other_other (t : Fin 2) : other (other t) = t := by
  revert t
  decide

theorem decide_other_eq_zero (t : Fin 2) : decide (other t = 0) = decide (t ≠ 0) := by
  revert t
  decide

/-- The CONFIRM of a MOVE_TO makes its arrival possible. -/
theorem State.confirm_moveTo {s : State} {src tag : Byte} {e : QEntry} {f : Flight} {t : Fin 2} {n : Nat} (hw : s.work = [])
    (hm : s.filter.matching src.toNat tag.toNat = some (e, f)) (hr : f.replaced = false) (hc : e.offer.code = cMOVETO)
    (hwait : s.filter.waiting = []) (hf : f.answer = .block (.drive t) n) (hn : (s.turner t).moveSerial = some n) :
    s.ConfirmGives src tag true ((s.dropEntry e.offer.station cMOVETO).onTurner t fun z => { z with moveAccepted := true }) := by
  have hcredit : s.Credits e f s := .inl ⟨rfl, .inl (by rw [hc]; decide)⟩
  have htake := State.takeConfirm_accepted hm hwait hr hcredit
  rw [hf, hc] at htake
  let u : State := s.dropEntry e.offer.station cMOVETO
  have htaken : u.takeEvent (.report (.accepted f.arg) (.drive t) n cMOVETO) = u.onTurner t fun z => { z with moveAccepted := true } :=
    State.onTurner_congr (if_pos hn)
  refine State.confirmGives ?_
  rw [htake]
  exact (State.settle_emit (s := u) hw (by rw [htaken]; exact hw)).trans htaken

theorem restAt_eq {x : Turner} {p : Nat} (h : x.faultReport = some (p : Int)) (h7 : p ≤ 7) : x.restAt = some p := by
  unfold Turner.restAt
  rw [h, Option.bind_some, if_pos ⟨Int.natCast_nonneg _, by omega⟩, Int.toNat_natCast]

/-- The turner that a demand goes to: IDLE with a clear route, nearer than the other or first of two as near (R77). -/
theorem State.chooseTurner_nearer {s : State} {t : Fin 2} {p q : Nat} (hs : (s.turner t).state = .idle)
    (hq : (s.turner t).position = some q) (hclear : (s.turner (other t)).ClearOf (t = 0) p)
    (ho : (s.turner (other t)).state ≠ .idle ∨ ¬ (s.turner t).ClearOf (t ≠ 0) p ∨ ∃ w, (s.turner (other t)).position = some w ∧
      (max q p - min q p < max w p - min w p ∨ (max q p - min q p = max w p - min w p ∧ t = 0))) : s.chooseTurner p = some t := by
  refine State.chooseTurner_eq (State.reach_some.2 ⟨hs, hclear, q, hq, rfl⟩) fun b hb => ?_
  obtain ⟨hos, hoclear, w, hw, hdist⟩ := State.reach_some.1 hb
  rw [other_other] at hoclear
  have hside : (decide (other t = 0) : Bool) = decide (t ≠ 0) := decide_other_eq_zero t
  rcases ho with h | h | ⟨w', hw', h⟩
  · exact absurd hos h
  · exact absurd (hside ▸ hoclear) h
  · obtain rfl := Option.some.inj (hw.symm.trans hw')
    rw [← hdist, max_comm p q, min_comm p q, max_comm p w, min_comm p w]
    exact h

theorem State.queued_work (s : State) (st code : Nat) (a : Int) (o : Origin) (p : Purpose) :
    (s.queued st code a o p).work = s.work := rfl

theorem State.homes_work (s : State) (t : Fin 2) (g : TurnerCfg) (p n : Nat) : (s.homes t g p n).work = s.work :=
  State.post_work ..

theorem State.not_barsHoming {s : State} {t : Fin 2} (h : (s.turner t).state = .unhomed ∨ (s.turner t).state = .idle) :
    (s.turner t).state.barsHoming = false := by
  rcases h with h | h <;> rw [h] <;> rfl

theorem State.exec_turnerHome {s : State} {r : Request} {g h : TurnerCfg} (htakes : s.takes .plant r = true) (hargs : r.args = [])
    (hhome : s.canHome = true) (hg : s.turnerCfg 0 = some g) (hh : s.turnerCfg 1 = some h) (hne : g.drive ≠ h.drive)
    (hs0 : (s.turner 0).state = .unhomed ∨ (s.turner 0).state = .idle)
    (hs1 : (s.turner 1).state = .unhomed ∨ (s.turner 1).state = .idle) (hr0 : s.roomFor g.drive cMOVETO .sequencer = true)
    (hr1 : s.roomFor h.drive cMOVETO .sequencer = true) (hlen : s.filter.queue.length < 15) :
    exec (.turnerHome r) s = .next ((((((s.received .plant).onMgmt fun m => { m with
      plant := some { src := r.src.toNat, seq := r.seq.toNat, cls := 4, code := 1 } }).homes 0 g 0 s.filter.serial).homes 1 h 7
        (s.filter.serial + 1)).queued g.drive cMOVETO 0 .sequencer (.drive 0)).queued h.drive cMOVETO 7 .sequencer (.drive 1)) := by
  let begun : State := (s.received .plant).onMgmt fun m => { m with
    plant := some { src := r.src.toNat, seq := r.seq.toNat, cls := 4, code := 1 } }
  have hbars : (allTurners.any fun t => ((s.received .plant).turner t).state.barsHoming) = false := by
    show ((s.turner 0).state.barsHoming || ((s.turner 1).state.barsHoming || false)) = false
    rw [State.not_barsHoming hs0, State.not_barsHoming hs1]
    rfl
  have hcan : (!(s.received .plant).canHome) = false := congrArg (! ·) hhome
  have hhandler : turnerHome .plant r (s.received .plant) = (begun.homeTurners, none) := by
    unfold turnerHome
    rw [if_neg (by rw [hargs]; simp), if_neg (by simp), hcan, hbars]
    rfl
  have hexec : exec (.turnerHome r) s = .next (s.requestArrives 4 1 turnerHome r).settle := rfl
  rw [hexec, State.requestArrives_begins htakes hhandler, State.homeTurners_eq (s := begun) hg hh hne hr0 hr1 hlen,
    State.settle_of_idle]
  · rfl
  · rw [State.queued_work, State.queued_work, State.homes_work, State.homes_work]
    exact (State.takes_iff.1 htakes).1

theorem twoOf_ofNat (t : Fin 2) : twoOf (BitVec.ofNat 8 t.val).toNat = some t := by
  revert t
  decide

theorem State.exec_turnerClear {s : State} {r : Request} {t : Fin 2} {p : Nat} (htakes : s.takes .plant r = true)
    (hargs : r.args = [BitVec.ofNat 8 t.val]) (hs : (s.turner t).state = .fault) (hrep : (s.turner t).faultReport = some (p : Int))
    (h7 : p ≤ 7) (hscan : s.noScan = true) (hd : ∀ c, (s.comp c).demand = none) :
    let u := (s.received .plant).onTurner t fun x => { x with target := none, assigned := none, cause := none }
    exec (.turnerClear r) s = .next ((if (s.turner t).position.isSome && s.keepsOrder t p
      then (u.onTurner t fun x => { x with position := some p, state := .idle }).post .turner .turner t.val 2 p
      else (u.onTurner t fun x => { x with position := none, state := .unhomed }).post .turner .turner t.val 0 255).replies
        r 4 2 .ok) := by
  intro u
  let cleared : State := if (s.turner t).position.isSome && s.keepsOrder t p
      then (u.onTurner t fun x => { x with position := some p, state := .idle }).post .turner .turner t.val 2 p
      else (u.onTurner t fun x => { x with position := none, state := .unhomed }).post .turner .turner t.val 0 255
  have hhandler : turnerClearReq .plant r (s.received .plant) = (cleared.emit .scan, some (.of .ok)) := by
    unfold turnerClearReq
    rw [hargs]
    dsimp only
    rw [if_neg (by simp), twoOf_ofNat]
    dsimp only
    rw [if_neg (fun h => h hs), show ((s.received .plant).turner t).restAt = some p from restAt_eq hrep h7]
    dsimp only
    rw [State.turnerClear_eq (s := s.received .plant) hd]
    rfl
  have hw : cleared.work = [] ∧ cleared.transfer = s.transfer := by
    unfold cleared
    split
    · exact ⟨(State.post_work ..).trans (State.takes_iff.1 htakes).1, State.post_transfer ..⟩
    · exact ⟨(State.post_work ..).trans (State.takes_iff.1 htakes).1, State.post_transfer ..⟩
  refine congrArg Host.Outcome.next (State.requestArrives_scans htakes hhandler hw.1 ?_)
  unfold State.noScan
  rw [hw.2]
  exact hscan

theorem State.compTimersRun_iff {s : State} {c : Fin 6} : s.compTimersRun c = true ↔
    s.compMode c = .auto ∧ (s.comp c).phase = .germinating ∧ s.compBlind c = false := by
  unfold State.compTimersRun
  simp [and_assoc]

/-- An interval timer that expires raises a demand, which goes to the turner that is chosen for it. -/
theorem State.intervalExpires_grants {s : State} {c : Fin 6} {t : Fin 2} (hrun : s.compTimersRun c = true)
    (hint : (s.comp c).interval = some 0) (hd : (s.comp c).demand = none) (ho : ∀ d, d ≠ c → (s.comp d).demand = none)
    (ht : s.chooseTurner (crossway c) = some t) :
    exec (.intervalTimerExpiry c) s = .next (((s.onComp c fun z => { z with
      interval := none, demand := some { kind := .scheduled, time := s.timeNow } }).grantTurner c t).settle) := by
  have hexec : exec (.intervalTimerExpiry c) s = .next (s.intervalExpires c).settle := rfl
  obtain ⟨hm, hp, hb⟩ := State.compTimersRun_iff.1 hrun
  let u : State := s.onComp c fun z => { z with interval := none }
  have hu : u.comp c = { s.comp c with interval := none } := State.onComp_comp_same ..
  have hraise : u.raiseDemand c .scheduled = (u.onComp c fun x => { x with
      demand := some { kind := .scheduled, time := u.timeNow } }).grantTurner c t :=
    State.raiseDemand_grants (by rw [hu]; exact hp) hb hm (by rw [hu]; exact hd)
      (fun d hd => (congrArg Comp.demand (State.onComp_comp_ne _ hd _)).trans (ho d hd)) ht
  rw [hexec]
  unfold State.intervalExpires
  rw [if_pos ⟨hint, hrun⟩]
  show Host.Outcome.next (u.raiseDemand c .scheduled).settle = _
  rw [hraise, State.onComp_onComp]
  rfl

/-- Settles O52: an interval timer's grant, a CONFIRM, each report by the turner's state, and the requests that home and clear. -/
theorem turnersAreGrantedHomedAndCleared : Obligations.TurnersAreGrantedHomedAndCleared := by
  refine ⟨?_, ?_, ?_⟩
  · intro s t c g k hg hk hothers x y p room passing starts
    refine ⟨?_, ?_, ?_⟩
    · intro hw hrun hint hdem hidle q hq clear away hclear ho granted
      have hgrant : exec (.intervalTimerExpiry c) s = .next (((s.onComp c fun z => { z with
          interval := none, demand := some { kind := .scheduled, time := s.timeNow } }).grantTurner c t).settle) :=
        State.intervalExpires_grants hrun hint hdem hothers (State.chooseTurner_nearer hidle hq hclear ho)
      have hgranted : (((s.onComp c fun z => { z with
          interval := none, demand := some { kind := .scheduled, time := s.timeNow } }).onComp c fun x => { x with
            demand := x.demand.map fun d => { d with turner := some t } }).onTurner t fun x => { x with assigned := some c }) =
          granted := by
        rw [State.onComp_onComp]
        rfl
      refine ⟨fun hne hroom => ?_, fun heq hroom => ?_⟩
      · rw [hgrant, State.grantTurner_moves (s := s.onComp c _) hg hroom
          (fun h => hne (Option.some.inj (hq.symm.trans h))) hgranted]
        exact congrArg Host.Outcome.next (State.settle_of_idle ((State.post_work ..).trans hw))
      · have hcomp : granted.comp c = { s.comp c with
            interval := none, demand := some { kind := .scheduled, time := s.timeNow, turner := some t } } :=
          State.onComp_comp_same ..
        have hassigned : (granted.turner t).assigned = some c := congrArg Turner.assigned (State.onTurner_turner_same ..)
        have hstart : exec (.intervalTimerExpiry c) s = .next (granted.startPass t c).settle := by
          rw [hgrant]
          unfold State.grantTurner
          dsimp only
          rw [hgranted, if_pos]
          exact hq.trans (congrArg some heq)
        have hmode : granted.compMode c = .auto := (State.compTimersRun_iff.1 hrun).1
        obtain ⟨hplain, hsprinkle⟩ := State.startPass_offers (s := granted) hg hk hroom hassigned hmode
        rw [hcomp] at hplain hsprinkle
        refine ⟨fun hno => ?_, fun f m w hf hm hsp hl hc hi hr hlen => ?_⟩
        · rw [hstart, hplain hno]
          exact congrArg Host.Outcome.next (State.settle_of_idle ((State.post_work ..).trans hw))
        · rw [hstart, hsprinkle f m w hf hm hsp hl hc hi hr hlen]
          exact congrArg Host.Outcome.next (State.settle_of_idle (s := State.queued _ ..) ((State.post_work ..).trans hw))
    · intro src tag e f n hw hno hm hr hc hwait hf hn
      exact (State.confirm_moveTo hw hm hr hc hwait hf hn).1 hno
    · intro n e v hown hrole hmp at_ idle
      have hdel : s.deliver n e v = s.turnerReport t v.val := State.deliver_turnerState hown hrole hmp v
      have hidle : idle = (s.onTurner t fun z => { z with
          state := .idle, assigned := none, position := some v.val.toNat, target := none, moveTimer := none }).post .turner
            .turner t.val 2 (v.val.toNat : Nat) := by
        unfold idle at_
        rw [State.onTurner_onTurner]
      rw [hdel]
      refine ⟨fun hs hv h => ?_, fun hs h0 h7 htg hacc ha => ⟨fun hp hm hd hroom => ?_, fun hp => ?_, fun hp hm => ?_⟩,
        fun hs h0 h7 htg hacc hd hroom => ?_, fun hs => ?_, fun hs ha h0 h7 hp hroom => ?_⟩
      · exact State.turnerReport_moving hs hv h
      · rw [State.turnerReport_arrives hs h0 h7 htg hacc, State.turnerArrives_passes htg ha hothers hp hm hd]
        have hassigned : (at_.turner t).assigned = some c := (congrArg Turner.assigned (State.onTurner_turner_same ..)).trans ha
        exact State.startPass_offers (s := at_) hg hk hroom hassigned hm
      · rw [State.turnerReport_arrives hs h0 h7 htg hacc, State.turnerArrives_idles htg ha hothers (.inl hp)]
        simp only [if_neg hp]
        rw [hidle]
      · rw [State.turnerReport_arrives hs h0 h7 htg hacc, State.turnerArrives_idles htg ha hothers (.inr hm)]
        simp only [if_pos hp]
        rw [hidle]
      · rw [State.turnerReport_homes hs h0 h7 htg hacc]
        refine State.homingArrives_eq hg hroom htg fun d => ?_
        rcases eq_or_ne d c with rfl | hdc
        · exact hd
        · exact hothers d hdc
      · exact State.turnerReport_fault hs _
      · rw [State.turnerReport_unbidden hs h0 h7 hp, State.turnerFault_unassigned hg hroom (by rw [show (s.turner t).state = _ from hs]; decide) ha]
        rfl
  · intro s r g h htakes hargs hhome hg hh hne hs0 hs1 hr0 hr1 hlen begun homing
    exact State.exec_turnerHome htakes hargs hhome hg hh hne hs0 hs1 hr0 hr1 hlen
  · intro s r t p htakes hargs hs hrep h7 hscan hd u
    have hclear := State.exec_turnerClear htakes hargs hs hrep h7 hscan hd
    refine ⟨fun ⟨hp, hk⟩ => ?_, fun hno => ?_⟩
    · rw [hclear, hp, hk]
      rfl
    · have hhome : ((s.turner t).position.isSome && s.keepsOrder t p) = false := by
        rcases hno with h | h <;> simp [h]
      rw [hclear, hhome]
      rfl

end Sys2Proof.Machine
end

section
/-! PROOFS. The germination stages: their limits, their commands, and the stage and interval timers (R36, R66, R70, R71). -/

namespace Sys2Proof.Machine

-- One declaration after the other: side by side, their stacks are more than the check's bound on memory.
set_option Elab.async false

/-! ## Stage high limits (R36) -/

/-- The committed tables and every MP's stage high limit are as before. -/
def State.SameHighs (s t : State) : Prop := t.tables = s.tables ∧ ∀ m, (t.live m).stageHigh = (s.live m).stageHigh

namespace State.SameHighs

variable {a s t : State}

theorem refl (s : State) : s.SameHighs s := ⟨rfl, fun _ => rfl⟩

theorem of_intake (h : a.SameHighs s) (ht : t.tables = s.tables) (hi : t.intake = s.intake) : a.SameHighs t :=
  ⟨ht.trans h.1, fun m => (congrArg MpLive.stageHigh (State.live_of_intake hi m)).trans (h.2 m)⟩

theorem onLive (h : a.SameHighs s) {n : Nat} {f : MpLive → MpLive} (hf : ∀ l, (f l).stageHigh = l.stageHigh) :
    a.SameHighs (s.onLive n f) := by
  refine ⟨h.1, fun m => ?_⟩
  rw [State.live_onLive]
  split
  · next hm => rw [hf, hm, h.2]
  · exact h.2 m

theorem selfKept (a : State) : State.SelfKept a.SameHighs where
  offers h hs := h.of_intake hs.tables hs.intake
  onSteep h := h.of_intake rfl rfl
  onTurner h := h.of_intake rfl rfl
  onKiln _ h := h.of_intake rfl rfl
  onDemand h := h.of_intake rfl rfl

theorem post (h : a.SameHighs s) {k : NoticeKind} {c : SourceClass} {i n : Nat} {v : Int} : a.SameHighs (s.post k c i n v) :=
  (selfKept a).post h

end State.SameHighs

/-- What a comparator's change of limits keeps: whatever its own state and a notice leave. -/
theorem State.relimit_keeps {R : State → Prop} (hlive : ∀ {s : State} {n : Nat} {f : MpLive → MpLive}, (∀ l, (f l).stageHigh = l.stageHigh) →
    R s → R (s.onLive n f)) (hpost : ∀ {s : State} {n l : Nat} {v : Int}, R s → R (s.post .limit .mp n l v)) {s : State} (h : R s)
    (n : Nat) (e : MpEntry) (old new : Limits) : R (s.relimit n e old new).1 := by
  have hcomp : ∀ (u : State) (x : Option Comparator), R u → R (u.onLive n fun l => { l with comp := x }) :=
    fun _ _ hu => hlive (fun _ => rfl) hu
  have hend : ∀ (u : State) (r : Level) (v : Int), R u → R (u.endSettling n e r v).1 := fun u r v hu =>
    State.ite_of (hcomp u _ hu) (hpost (hcomp u _ hu))
  unfold State.relimit
  split
  · split
    · exact h
    · unfold State.limitChange
      dsimp only
      split
      · split
        · exact hend _ _ _ (hcomp s _ h)
        · exact hcomp s _ h
      · exact hcomp s _ h
  · split
    · unfold State.ceaseComparator
      rw [State.postClosed_eq]
      exact State.ite_of (hcomp s _ h) (hpost (hcomp s _ h))
    · exact h

/-- A stage high limit is set, and no other is changed. -/
theorem State.setStageHigh_live {s : State} {n : Nat} {e : MpEntry} (he : s.tables.mp.get n = some e) (h : Option Int) :
    (s.setStageHigh n h).tables = s.tables ∧
      ∀ m, ((s.setStageHigh n h).live m).stageHigh = if m = n then h else (s.live m).stageHigh := by
  let s1 : State := s.onLive n fun x => { x with stageHigh := h }
  have hkept : s1.SameHighs (s.setStageHigh n h) := by
    rw [State.setStageHigh_eq he]
    exact (State.SameHighs.selfKept s1).tellAll (State.relimit_keeps (R := s1.SameHighs) (fun hf hs => hs.onLive hf)
      (fun hs => hs.post) (State.SameHighs.refl s1) ..)
  refine ⟨hkept.1, fun m => ?_⟩
  rw [hkept.2 m, State.live_onLive]
  split <;> rfl

theorem Tbl.mem_of_get {α : Type} {t : Tbl α} {n : Nat} {a : α} (h : t.get n = some a) : (n, a) ∈ t := by
  induction t with
  | nil => exact nomatch h
  | cons e t ih =>
    obtain ⟨k, b⟩ := e
    rw [Tbl.get_cons] at h
    split at h
    · next hk =>
      obtain rfl := Option.some.inj h
      exact hk ▸ List.mem_cons_self
    · exact List.mem_cons_of_mem _ (ih h)

theorem Tbl.get_of_mem {α : Type} {t : Tbl α} (hwf : t.wf = true) {e : Nat × α} (h : e ∈ t) : t.get e.1 = some e.2 := by
  induction t with
  | nil => exact nomatch h
  | cons x t ih =>
    obtain ⟨k, b⟩ := x
    obtain ⟨hlt, hwf'⟩ := (Tbl.wf_cons k b t).1 hwf
    rw [Tbl.get_cons]
    rcases List.mem_cons.1 h with rfl | h
    · exact if_pos rfl
    · rw [if_neg (Nat.ne_of_lt (hlt e h)), ih hwf' h]

/-- The stage high limit is that of every MP which the vessel has in one of the roles. -/
theorem State.setStageHighs_live {s : State} (hwf : s.tables.mp.wf = true) {v : Fin 12} {roles : Role → Bool} {m : Nat} {e : MpEntry}
    (he : s.tables.mp.get m = some e) (hv : e.owner = .vessel v) (hr : roles e.role = true) (h : Option Int) :
    ((s.setStageHighs v roles h).live m).stageHigh = h := by
  have hset : ∀ (l : List (Nat × MpEntry)) (u : State), u.tables = s.tables → (∀ x ∈ l, s.tables.mp.get x.1 = some x.2) →
      (m, e) ∈ l ∨ (u.live m).stageHigh = h → ((l.foldl (fun s e => s.setStageHigh e.1 h) u).live m).stageHigh = h := by
    intro l
    induction l with
    | nil => exact fun u _ _ hm => hm.elim (fun hm => nomatch hm) id
    | cons x l ih =>
      intro u hu hl hm
      obtain ⟨ht, hhigh⟩ := State.setStageHigh_live (s := u) (n := x.1) (e := x.2) (hu ▸ hl x List.mem_cons_self) h
      refine ih _ (ht.trans hu) (fun y hy => hl y (List.mem_cons_of_mem _ hy)) ?_
      rw [hhigh]
      by_cases hx : m = x.1
      · exact .inr (if_pos hx)
      · rw [if_neg hx]
        exact hm.imp (fun hm => (List.mem_cons.1 hm).resolve_left fun heq => hx (congrArg Prod.fst heq)) id
  refine hset _ s rfl (fun x hx => Tbl.get_of_mem hwf (List.mem_filter.1 hx).1) (.inl ?_)
  exact List.mem_filter.2 ⟨Tbl.mem_of_get he, decide_eq_true ⟨hv, hr⟩⟩

/-- With no MP in one of the roles there is no stage high limit to set. -/
theorem State.setStageHighs_none {s : State} {v : Fin 12} {roles : Role → Bool}
    (h : ∀ e ∈ s.tables.mp, e.2.owner = .vessel v → roles e.2.role = false) (x : Option Int) : s.setStageHighs v roles x = s := by
  unfold State.setStageHighs
  rw [List.filter_eq_nil_iff.2 fun e he => ?_]
  · rfl
  · rw [decide_eq_true_eq]
    rintro ⟨hv, hr⟩
    exact Bool.noConfusion ((h e he hv).symm.trans hr)

/-- Stage high limits keep what the sequencers' own work and the MPs' live states leave. -/
theorem State.SelfKept.setStageHighs {R : State → Prop} (w : State.SelfKept R)
    (hlive : ∀ {s : State} {n : Nat} {f : MpLive → MpLive}, R s → R (s.onLive n f)) {s : State} (h : R s) {v : Fin 12}
    {roles : Role → Bool} {x : Option Int} : R (s.setStageHighs v roles x) := by
  have hset : ∀ {u : State} {n : Nat}, R u → R (u.setStageHigh n x) := fun {u n} hu => by
    unfold State.setStageHigh
    split
    · exact w.tellAll (State.relimit_keeps (fun _ hs => hlive hs) (fun hs => w.post hs) (hlive hu) n _ _ _)
    · exact hu
  unfold State.setStageHighs
  generalize s.tables.mp.filter _ = l
  induction l generalizing s with
  | nil => exact h
  | cons e l ih => exact ih (hset h)

/-! ## What a stage keeps -/

/-- The compartments but for their demands. -/
def State.SameStages (s t : State) : Prop := ∀ c, t.comp c = { s.comp c with demand := (t.comp c).demand }

namespace State.SameStages

variable {a s t : State}

theorem refl (s : State) : s.SameStages s := fun _ => rfl

theorem of_comps (h : a.SameStages s) (hc : t.comps = s.comps) : a.SameStages t := fun c => by
  have hcomp : t.comp c = s.comp c := by unfold State.comp; rw [hc]
  rw [hcomp]
  exact h c

theorem onDemand (h : a.SameStages s) {c : Fin 6} {f : Option Demand → Option Demand} :
    a.SameStages (s.onComp c fun x => { x with demand := f x.demand }) := fun d => by
  rcases eq_or_ne d c with rfl | hd
  · rw [State.onComp_comp_same, h d]
  · rw [State.onComp_comp_ne _ hd]
    exact h d

theorem selfKept (a : State) : State.SelfKept a.SameStages where
  offers h hs := h.of_comps hs.comps
  onSteep h := h.of_comps rfl
  onTurner h := h.of_comps rfl
  onKiln _ h := h.of_comps rfl
  onDemand h := h.onDemand

theorem setStageHighs (h : a.SameStages s) {v : Fin 12} {roles : Role → Bool} {x : Option Int} :
    a.SameStages (s.setStageHighs v roles x) := (selfKept a).setStageHighs (fun hs => hs.of_comps rfl) h

end State.SameStages

/-! ## Stages (R65, R66) -/

theorem State.phaseCode_comp (s : State) (c : Fin 6) : s.phaseCode (compNo c) = (s.comp c).phase.code := by
  unfold State.phaseCode
  rw [vesselIs_compNo]

theorem State.compTo_eq (s : State) (c : Fin 6) (p : CompState) :
    s.compTo c p = (s.onComp c fun x => { x with phase := p }).post .phase .vessel (compNo c).val p.code (s.comp c).index := by
  unfold State.compTo State.postPhase State.postVessel
  rw [State.phaseCode_comp, State.onComp_comp_same]

/-- A stage's records: its index, its fields, its timer and the interval timer. -/
def Comp.inStage (x : Comp) (n : Nat) (f : GermStage) : Comp :=
  { x with
    index := n, fields := some f, phase := .germinating, stageTimer := some (f.duration * 600)
    interval := if x.demand.isNone then f.intervalTimer else none }

/-- A stage is in the compartment's record once its commands are offered, whatever else they set off. -/
theorem State.startGermStage_comp (s : State) (c : Fin 6) (n : Nat) (f : GermStage) :
    ((s.startGermStage c n f).comp c).index = n ∧ ((s.startGermStage c n f).comp c).fields = some f ∧
    ((s.startGermStage c n f).comp c).phase = .germinating ∧
    ((s.startGermStage c n f).comp c).stageTimer = some (f.duration * 600) := by
  let s1 : State := (s.onComp c fun x => { x with index := n, fields := some f }).compTo c .germinating
  let s2 : State := (s1.setStageHighs (compNo c) Role.bed f.bedHigh).onComp c fun x => { x with
    stageTimer := some (f.duration * 600), interval := if x.demand.isNone then f.intervalTimer else none }
  have h1 : s1.comp c = { s.comp c with index := n, fields := some f, phase := .germinating } := by
    unfold s1
    rw [State.compTo_eq, State.post_comp, State.onComp_onComp, State.onComp_comp_same]
  have h2 := State.SameStages.refl s1 |>.setStageHighs (v := compNo c) (roles := Role.bed) (x := f.bedHigh) c
  have hkept : s2.SameStages (s.startGermStage c n f) := by
    have hk := State.SameStages.selfKept s2
    have hoffers : s2.SameStages (if s2.compMode c = .auto then s2.offerAir c else s2) := by
      refine State.ite_of ?_ (State.SameStages.refl s2)
      unfold State.offerAir
      split
      · exact hk.sendArgTo (hk.sendTo (hk.sendArgTo (State.SameStages.refl s2)))
      · exact State.SameStages.refl s2
    show s2.SameStages (State.spreadTest _ c)
    unfold State.spreadTest
    split
    · exact State.ite_of (hk.raiseDemand hoffers) hoffers
    · exact hoffers
  have hcomp : s2.comp c = _ := State.onComp_comp_same ..
  rw [hkept c, hcomp, h2, h1]
  exact ⟨rfl, rfl, rfl, rfl⟩


/-- The stage high limit of every bed probe is the stage's, once its commands are offered. -/
theorem State.startGermStage_live {s : State} (hwf : s.tables.mp.wf = true) {c : Fin 6} {m : Nat} {e : MpEntry}
    (he : s.tables.mp.get m = some e) (hv : e.owner = .vessel (compNo c)) (hr : e.role.bed = true) (n : Nat) (f : GermStage) :
    ((s.startGermStage c n f).live m).stageHigh = f.bedHigh := by
  let s1 : State := (s.onComp c fun x => { x with index := n, fields := some f }).compTo c .germinating
  let s2 : State := (s1.setStageHighs (compNo c) Role.bed f.bedHigh).onComp c fun x => { x with
    stageTimer := some (f.duration * 600), interval := if x.demand.isNone then f.intervalTimer else none }
  have htables : s1.tables = s.tables := State.post_tables ..
  have hkept : s2.SameSurroundings (s.startGermStage c n f) := by
    have hoffers : s2.SameSurroundings (if s2.compMode c = .auto then s2.offerAir c else s2) := by
      refine State.ite_of ?_ (State.SameSurroundings.refl s2)
      unfold State.offerAir
      split
      · exact (State.SameSurroundings.refl s2).sendArgTo.sendTo.sendArgTo
      · exact State.SameSurroundings.refl s2
    show s2.SameSurroundings (State.spreadTest _ c)
    unfold State.spreadTest
    split
    · exact hoffers.raiseDemand.ite hoffers
    · exact hoffers
  rw [State.live_of_intake hkept.intake]
  exact State.setStageHighs_live (s := s1) (by rw [htables]; exact hwf) (by rw [htables]; exact he) hv hr f.bedHigh

/-! ## Air and fan (R66) -/

theorem State.spreadTest_none {s : State} {c : Fin 6}
    (h : ∀ e ∈ s.tables.mp, e.2.owner = .vessel (compNo c) → e.2.role.bed = false) : s.spreadTest c = s := by
  have hno : ∀ r : Role, r.bed = true → s.usableRole (.vessel (compNo c)) r = none := fun r hr => by
    unfold State.usableRole State.mpOf State.mpsOf
    rw [List.filter_eq_nil_iff.2 fun e he => ?_]
    · rfl
    · rw [decide_eq_true_eq]
      rintro ⟨hv, hrole⟩
      exact Bool.noConfusion ((h e he hv).symm.trans (hrole ▸ hr))
  have hprobes : s.bedProbes c = [] := by
    unfold State.bedProbes
    simp only [List.filterMap_cons, List.filterMap_nil, hno .bedTemp1 rfl, hno .bedTemp2 rfl, hno .bedTemp3 rfl,
      hno .bedTemp4 rfl]
  unfold State.spreadTest
  rw [hprobes]
  split
  · next hs => exact nomatch hs
  · rfl

/-- The three commands of a stage, one behind the other. -/
theorem State.offerAir_eq {s : State} {c : Fin 6} {f : GermStage} {k : CompCfg} (hf : (s.comp c).fields = some f)
    (hk : s.compCfg c = some k) (hne : k.air ≠ k.fan) (hlen : s.filter.queue.length < 14)
    (hair : s.roomFor k.air cSETPOINT .sequencer = true) (hrun : s.roomFor k.fan cRUN .sequencer = true)
    (hset : s.roomFor k.fan cSETPOINT .sequencer = true) (hga : s.burnerGuard k.air cSETPOINT f.air = f.air)
    (hgf : s.burnerGuard k.fan cSETPOINT f.fan = f.fan) (hpeat : s.peatShut k.fan cRUN = false) :
    let a := s.queued k.air cSETPOINT f.air .sequencer (.vessel (compNo c))
    let b := a.queued k.fan cRUN a.noArg .sequencer (.vessel (compNo c))
    s.offerAir c = b.queued k.fan cSETPOINT f.fan .sequencer (.vessel (compNo c)) := by
  intro a b
  have hcfg : ∀ u : State, u.tables = s.tables → u.compCfg c = some k := fun u hu => by
    unfold State.compCfg
    rw [hu]
    exact hk
  have h1 : s.compSendArg c (·.air) cSETPOINT f.air = a := by
    unfold State.compSendArg
    rw [hk]
    exact State.blockOffer_room (a := some f.air) hair (State.peatShut_of_code (by decide) _) (by decide) hga
  have hrun' : a.roomFor k.fan cRUN .sequencer = true := State.roomFor_queued hrun (.inl hne) (by omega) ..
  have h2 : a.compSend c (·.fan) cRUN = b := by
    unfold State.compSend
    rw [hcfg a rfl]
    exact State.blockOffer_room (a := none) hrun' hpeat (by decide) (State.burnerGuard_of_code rfl _)
  have hset' : b.roomFor k.fan cSETPOINT .sequencer = true :=
    State.roomFor_queued (State.roomFor_queued hset (.inl hne) (by omega) ..) (.inr (by decide)) (by
      rw [State.queued_length]
      omega) ..
  have h3 : b.compSendArg c (·.fan) cSETPOINT f.fan = b.queued k.fan cSETPOINT f.fan .sequencer (.vessel (compNo c)) := by
    unfold State.compSendArg
    rw [hcfg b rfl]
    exact State.blockOffer_room (a := some f.fan) hset' (State.peatShut_of_code (by decide) _) (by decide) hgf
  unfold State.offerAir
  rw [hf]
  dsimp only
  rw [h1, h2, h3]

/-- In AUTO and without a bed probe a stage is its record, its notice and its commands. -/
theorem State.startGermStage_eq {s : State} {c : Fin 6} (hm : s.compMode c = .auto)
    (hbed : ∀ e ∈ s.tables.mp, e.2.owner = .vessel (compNo c) → e.2.role.bed = false) (n : Nat) (f : GermStage) :
    s.startGermStage c n f =
      State.offerAir ((s.onComp c fun x => x.inStage n f).post .phase .vessel (compNo c).val 2 n) c := by
  let p : State := (s.onComp c fun x => x.inStage n f).post .phase .vessel (compNo c).val 2 n
  let s1 : State := (s.onComp c fun x => { x with index := n, fields := some f }).compTo c .germinating
  have hside : State.Beside (·.onComp c fun x => { x with
      stageTimer := some (f.duration * 600), interval := if x.demand.isNone then f.intervalTimer else none }) :=
    State.beside_onComp fun _ => rfl
  have htables : ∀ y : State, (y.post .phase .vessel (compNo c).val 2 n).tables = y.tables := fun y => State.post_tables ..
  have hs1 : s1.tables = s.tables := State.post_tables ..
  have hp : (s1.onComp c fun x => { x with
      stageTimer := some (f.duration * 600), interval := if x.demand.isNone then f.intervalTimer else none }) = p := by
    unfold s1 p
    rw [State.compTo_eq, State.onComp_comp_same, hside.post, State.onComp_onComp, State.onComp_onComp]
    rfl
  have hauto : p.compMode c = .auto := by
    unfold State.compMode State.vessel
    rw [State.post_vessels]
    exact hm
  have hoffers : (p.offerAir c).tables = s.tables := by
    have hk : p.SameSurroundings (p.offerAir c) := by
      unfold State.offerAir
      split
      · exact (State.SameSurroundings.refl p).sendArgTo.sendTo.sendArgTo
      · exact State.SameSurroundings.refl p
    exact hk.tables.trans (htables _)
  show State.spreadTest (if (State.onComp (s1.setStageHighs (compNo c) Role.bed f.bedHigh) c _).compMode c = .auto then _ else _) c = _
  rw [State.setStageHighs_none (by rw [hs1]; exact hbed), hp, if_pos hauto]
  exact State.spreadTest_none (by rw [hoffers]; exact hbed)

theorem Comp.inStage_eq {x : Comp} (hp : x.phase = .germinating) (n : Nat) (f : GermStage) :
    Comp.inStage { x with stageTimer := none } n f = { x with
      index := n, fields := some f, stageTimer := some (f.duration * 600)
      interval := if x.demand = none ∧ f.interval ≠ 0 then some (f.interval * 600) else none } := by
  unfold Comp.inStage GermStage.intervalTimer
  rw [← hp]
  by_cases hi : f.interval = 0 <;> cases x.demand <;> simp [hi]

/-- The end of a program in AUTO, from a compartment whose stage timer has stopped. -/
theorem State.germEnds_auto {s : State} {c : Fin 6} (hm : s.compMode c = .auto) :
    (s.onComp c fun x => { x with stageTimer := none }).germEnds c = ((s.onComp c fun x => { x with
      phase := .ready, stageTimer := none, interval := none
      demand := x.demand.filter fun d => d.turner.isSome }).post .phase .vessel (compNo c).val 3
        (s.comp c).index).postRequest (compNo c) := by
  have hside : State.Beside (·.onComp c fun x => { x with
      interval := none, demand := x.demand.filter fun d => d.turner.isSome }) := State.beside_onComp fun _ => rfl
  unfold State.germEnds
  dsimp only
  rw [if_pos (show (s.onComp c fun x => { x with stageTimer := none }).compMode c = .auto from hm), State.compTo_eq, hside.post,
    State.onComp_onComp, State.onComp_onComp, State.onComp_comp_same]
  rfl

/-- A request that joins the list while a transfer runs prompts a scan that finds nothing. -/
theorem State.addRequest_settles {s : State} (hw : s.work = []) (hr : s.transfer.running.isSome = true) (q : TransferReq) :
    (s.addRequest q).settle = s.onTransfer fun t => { t with requests := insertReq t.requests q } := by
  refine State.settle_emit_scan (s := s.onTransfer _) hw ?_
  unfold State.noScan
  rw [State.onTransfer_transfer, hr]
  rfl

theorem State.postRequest_comp {s : State} {c : Fin 6} (hq : s.hasRequest (compNo c) = false) :
    s.postRequest (compNo c) = s.addRequest { kind := .load, source := compNo c, dest := none, fromPlant := false, time := s.timeNow } := by
  unfold State.postRequest
  rw [if_neg (by rw [hq]; decide)]
  dsimp only
  rw [vesselIs_compNo]

/-! ## The timers (R66, R70, R71) -/

/-- Settles O23: the stage timer at the last stage and before it, and the interval timer. -/
theorem compartmentTimersEndTheirWaits : Obligations.CompartmentTimersEndTheirWaits := by
  intro s c hw hrun
  obtain ⟨hm, hp, hb⟩ := State.compTimersRun_iff.1 hrun
  refine ⟨fun ht hlast htr hreq => ?_, fun f ht hnext => ?_, fun hi hd h0 h1 => ?_⟩
  · have hexec : exec (.stageTimerExpiry c) s = .next (s.stageExpires c).settle := rfl
    let p : State := (s.onComp c fun x => { x with
        phase := .ready, stageTimer := none, interval := none
        demand := x.demand.filter fun d => d.turner.isSome }).post .phase .vessel (compNo c).val 3 (s.comp c).index
    have hends : s.stageExpires c = p.postRequest (compNo c) := by
      unfold State.stageExpires
      rw [if_pos ⟨ht, hrun⟩]
      dsimp only
      rw [hlast]
      exact State.germEnds_auto (s := s) hm
    have htransfer : p.transfer = s.transfer := State.post_transfer ..
    have hnow : p.timeNow = s.timeNow := by
      unfold State.timeNow
      rw [State.post_clock]
      rfl
    have hreq' : p.hasRequest (compNo c) = false := by
      unfold State.hasRequest
      rw [htransfer]
      exact hreq
    rw [hexec, hends, State.postRequest_comp hreq', State.addRequest_settles (s := p) ((State.post_work ..).trans hw) (by rw [htransfer]; exact htr),
      hnow]
    refine congrArg Host.Outcome.next (State.onTransfer_congr ?_)
    rw [htransfer]
    rfl
  · intro n v t
    let s1 : State := s.onComp c fun x => { x with stageTimer := none }
    have hstart : t = s1.startGermStage c n f := by
      show s.stageExpires c = _
      unfold State.stageExpires
      rw [if_pos ⟨ht, hrun⟩]
      dsimp only
      rw [hnext]
    obtain ⟨hidx, hfields, hphase, htimer⟩ := State.startGermStage_comp s1 c n f
    refine ⟨?_, fun k hk hbed hne hlen hair hfrun hfset hga hgf hpeat => ?_⟩
    · rw [hstart]
      exact ⟨hidx, hfields, hphase, htimer, fun hwf m e he hv hr => State.startGermStage_live (s := s1) hwf he hv hr n f⟩
    · intro a b
      have hexec : exec (.stageTimerExpiry c) s = .next t.settle := rfl
      have hrecord : (s1.onComp c fun x => x.inStage n f) = s.onComp c fun x => { x with
          index := n, fields := some f, stageTimer := some (f.duration * 600)
          interval := if x.demand = none ∧ f.interval ≠ 0 then some (f.interval * 600) else none } := by
        rw [State.onComp_onComp]
        exact State.onComp_congr (Comp.inStage_eq hp n f)
      let p : State := (s.onComp c fun x => { x with
          index := n, fields := some f, stageTimer := some (f.duration * 600)
          interval := if x.demand = none ∧ f.interval ≠ 0 then some (f.interval * 600) else none }).post .phase .vessel
            (compNo c).val 2 n
      have htables : p.tables = s.tables := State.post_tables ..
      have hkilns : p.kilns = s.kilns := State.post_kilns ..
      have hroom : ∀ st code, p.roomFor st code .sequencer = s.roomFor st code .sequencer := fun st code => State.roomFor_post ..
      have hoffers : p.offerAir c = b.queued k.fan cSETPOINT f.fan .sequencer (.vessel v) :=
        State.offerAir_eq (s := p) (by rw [State.post_comp, State.onComp_comp_same])
          (by unfold State.compCfg; rw [htables]; exact hk) hne (by rw [State.post_filter]; exact hlen)
          ((hroom _ _).trans hair) ((hroom _ _).trans hfrun) ((hroom _ _).trans hfset)
          ((State.burnerGuard_congr htables hkilns ..).trans hga) ((State.burnerGuard_congr htables hkilns ..).trans hgf)
          ((State.peatShut_congr htables hkilns ..).trans hpeat)
      rw [hexec, hstart, State.startGermStage_eq (s := s1) hm hbed, hrecord, hoffers, State.settle_of_idle]
      rw [State.queued_work, State.queued_work, State.queued_work, State.post_work]
      exact hw
  · have hexec : exec (.intervalTimerExpiry c) s = .next (s.intervalExpires c).settle := rfl
    let u : State := s.onComp c fun x => { x with interval := none }
    have hu : u.comp c = { s.comp c with interval := none } := State.onComp_comp_same ..
    have hraise : u.raiseDemand c .scheduled = u.onComp c fun x => { x with
        demand := some { kind := .scheduled, time := s.timeNow, turner := none } } := by
      unfold State.raiseDemand
      rw [if_pos ⟨by rw [hu]; exact hp, by rw [show u.compBlind c = false from hb]; rfl⟩, hu, hd]
      refine State.turnerArbiter_of_busy fun j => ?_
      have hj : j = 0 ∨ j = 1 := by omega
      rcases hj with rfl | rfl
      · exact h0
      · exact h1
    rw [hexec]
    unfold State.intervalExpires
    rw [if_pos ⟨hi, hrun⟩]
    show Host.Outcome.next (u.raiseDemand c .scheduled).settle = _
    rw [hraise, State.onComp_onComp]
    exact congrArg Host.Outcome.next (State.settle_of_idle hw)

end Sys2Proof.Machine
end

section
/-! PROOFS. The excise terminal's requests: lock and unlock, the export, and the COMMIT of its tables (R145, R147, R149, R150). -/

namespace Sys2Proof.Machine

-- One declaration after the other: side by side, their stacks are more than the check's bound on memory.
set_option Elab.async false

/-! ## The lock (R149, R150) -/

/-- A request of the excise terminal reloads the idle timer of an open lock, and leaves the rest of the unit. -/
theorem State.received_excise_idle (s : State) : ∃ i, (s.received .excise).excise = { s.excise with idle := i } := by
  unfold State.received
  dsimp only
  split
  · exact ⟨_, rfl⟩
  · exact ⟨s.excise.idle, rfl⟩

/-- EXCISE UNLOCK in LOCKED with room, up to the code. -/
theorem exciseUnlock_locked {s : State} {r : Request} (hlen : r.args.length = 4) (hl : s.excise.lock = .locked)
    (ha : 1 ≤ s.excise.avail) : exciseUnlock .excise r s =
      if ofBytes r.args = s.excise.now.tables.code then (s.unlock r.src.toNat).done else s.unlockFails r.src.toNat := by
  unfold exciseUnlock
  rw [if_neg (fun h => h hlen), if_neg (by simp), hl, if_neg (by decide), if_neg (by decide), if_neg (by omega)]

/-- An event of one entry about the lock leaves no work, whatever it writes. -/
theorem State.writeEvent_work {s : State} (e : Entry) (b : Bool) (hf : s.excise.storeFault = false)
    (hn : s.excise.now.next < max32) : ((s.writeEntry e).closeEvent b).work = s.work := by
  obtain ⟨g, hg⟩ := State.writeEvent_room e b hf hn
  rw [hg]
  rfl

/-- The event of a wrong code: its count, and the entry of the refusal. -/
def State.wrongCode (s : State) (src : Nat) : State :=
  ((s.onExcise fun e => { e with failed := s.excise.failed + 1 }).writeEntry
    { number := 0, kind := kREFUSED, quantity := s.excise.failed + 1, a1 := src }).closeEvent false

theorem State.unlockFails_counts {s : State} (h : s.excise.failed + 1 < 3) (src : Nat) :
    s.unlockFails src = (s.wrongCode src, some { status := .notPermitted, detail := s.excise.failed + 1 }) := by
  unfold State.unlockFails
  exact if_pos h

theorem State.unlockFails_locks_out {s : State} (h : 3 ≤ s.excise.failed + 1) (src : Nat) :
    s.unlockFails src = (((s.wrongCode src).onExcise fun e => { e with
      lock := .lockedOut, lockout := some lockoutTenths }).post .excise .excise 0 2 3).says .locked := by
  unfold State.unlockFails
  exact if_neg (Nat.not_lt.2 h)

theorem State.wrongCode_work {s : State} (hf : s.excise.storeFault = false) (hn : s.excise.now.next < max32) (src : Nat) :
    (s.wrongCode src).work = s.work :=
  State.writeEvent_work (s := s.onExcise fun e => { e with failed := s.excise.failed + 1 }) _ false hf hn

theorem State.unlock_work {s : State} (hf : s.excise.storeFault = false) (hn : s.excise.now.next < max32) (src : Nat) :
    (s.unlock src).work = s.work :=
  (State.post_work ..).trans (State.writeEvent_work
    (s := s.onExcise fun e => { e with lock := .unlocked, failed := 0, idle := some idleTenths }) _ false hf hn)

/-- A relock by request, with room for its entry. -/
theorem State.relock_request {s : State} (ha : 1 ≤ s.excise.avail) :
    s.relock .request = (((s.onExcise fun e => { e with lock := .locked, idle := none, staged := e.now.tables }).writeEntry
      { number := 0, kind := kLOCK, a0 := 1 }).closeEvent false).post .excise .excise 0 0 1 := by
  have hlock : (s.onExcise fun e => { e with lock := .locked, idle := none, staged := e.now.tables }).writeLock .request =
      (s.onExcise fun e => { e with lock := .locked, idle := none, staged := e.now.tables }).writeEntry
        { number := 0, kind := kLOCK, a0 := 1 } := if_pos ha
  unfold State.relock
  dsimp only
  rw [hlock]
  rfl

/-! ## The export (R145) -/

/-- Exported-through moves on by its own event, where no mark is pending. -/
theorem State.acknowledge_eq {s : State} (hf : s.excise.storeFault = false) (hm : s.excise.now.restart = none)
    (hl : s.excise.pendingLock = none) (a : Nat) :
    s.acknowledge a = (s.onExcise fun e => { e with
      now := { e.now with exported := a }
      jobs := e.jobs ++ [{ entries := e.fresh, counters := { e.now with exported := a }, reply := true }]
      fresh := [] }).emit .scan := by
  let s1 : State := s.onExcise fun e => { e with now := { e.now with exported := a } }
  have hmarks : s1.writeMarks = s1 := by
    unfold State.writeMarks
    rw [State.writeRestartMark_of_none (s := s1) hm, State.writeLockMark_of_none (s := s1) hl]
  have hclose : s1.closeEvent true = s.onExcise fun e => { e with
      now := { e.now with exported := a }
      jobs := e.jobs ++ [{ entries := e.fresh, counters := { e.now with exported := a }, reply := true }]
      fresh := [] } := State.closeEvent_room (s := s1) hf true
  have hlong : s1.closeLong = s1.closeEvent true := by
    unfold State.closeLong
    dsimp only
    rw [hclose]
    exact if_neg (by rw [State.onExcise_excise, hf]; decide)
  show (s1.writeMarks.closeLong).emit .scan = _
  rw [hmarks, hlong, hclose]

/-- Settles O56: an attempt to unlock by its code and its count, a relock by the lock, and an export by its number. -/
theorem exciseRequestsMoveLockAndExport : Obligations.ExciseRequestsMoveLockAndExport := by
  refine ⟨fun s r => ⟨fun h hlen hl ha hn => ?_, fun hargs => ⟨fun h => ⟨fun hl ha hn => ?_, fun hl => ?_⟩, fun h => ?_⟩⟩, fun s r hlen => ?_⟩
  · intro u n wrong
    obtain ⟨i, hi⟩ := s.received_excise_idle
    have hw : u.work = [] := (State.takes_iff.1 h).1
    have hunlock := exciseUnlock_locked (s := u) hlen (by rw [hi]; exact hl) (by rw [hi]; exact ha)
    have hfault : u.excise.storeFault = false := by
      rw [hi]
      exact Excise.storeFault_of_avail ha
    have hnext : u.excise.now.next < max32 := by
      rw [hi]
      exact hn
    have hcode : u.excise.now.tables.code = s.excise.now.tables.code := by rw [hi]
    have hfailed : u.excise.failed = s.excise.failed := by rw [hi]
    have hwrong : u.wrongCode r.src.toNat = wrong := by
      unfold State.wrongCode
      rw [hfailed]
    have hwork : wrong.work = [] := hwrong ▸ (State.wrongCode_work hfault hnext _).trans hw
    rw [hcode] at hunlock
    refine ⟨fun hc => ?_, fun hc hlt => ?_, fun hc hge => ?_⟩
    · exact congrArg Host.Outcome.next (State.requestArrives_settles h (a := .of .ok) (hunlock.trans (if_pos hc))
        ((State.unlock_work hfault hnext _).trans hw))
    · refine congrArg Host.Outcome.next (State.requestArrives_settles h (t := wrong) (a := { status := .notPermitted, detail := n }) ?_ hwork)
      rw [hunlock, if_neg hc, State.unlockFails_counts (by rw [hfailed]; exact hlt), hwrong, hfailed]
    · refine congrArg Host.Outcome.next (State.requestArrives_settles h (a := .of .locked) ?_ ((State.post_work ..).trans hwork))
      rw [hunlock, if_neg hc, State.unlockFails_locks_out (by rw [hfailed]; exact hge), hwrong]
      rfl
  · have hw := (State.takes_iff.1 h).1
    obtain ⟨i, hi⟩ := s.received_excise_idle
    refine congrArg Host.Outcome.next (State.requestArrives_settles h (a := .of .ok) ?_ ?_)
    · unfold exciseLock
      rw [if_neg (fun h => h hargs), if_neg (by simp), hi, if_pos hl, State.relock_request (by rw [hi]; exact ha)]
      rfl
    · refine (State.post_work ..).trans ((State.writeEvent_work
        (s := (s.received .excise).onExcise fun e => { e with lock := .locked, idle := none, staged := e.now.tables })
        { number := 0, kind := kLOCK, a0 := 1 } false ?_ ?_).trans hw)
      · rw [State.onExcise_excise, hi]
        exact Excise.storeFault_of_avail ha
      · rw [State.onExcise_excise, hi]
        exact hn
  · obtain ⟨i, hi⟩ := s.received_excise_idle
    refine congrArg Host.Outcome.next (State.requestArrives_says h ?_)
    unfold exciseLock
    rw [if_neg (fun h => h hargs), if_neg (by simp), hi, if_neg hl]
    rfl
  · refine congrArg Host.Outcome.next (State.requestArrives_says h ?_)
    unfold exciseLock
    rw [if_neg (fun h => h hargs), if_pos (by decide)]
  · intro a say
    obtain ⟨i, hi⟩ := s.received_excise_idle
    have hack : exciseAcknowledge .excise r (s.received .excise) = if s.excise.storeFault then (s.received .excise).says .notReady
        else if a < s.excise.now.exported ∨ s.excise.now.next ≤ a then (s.received .excise).says .badArgument
        else (((s.received .excise).beginLong .excise r 6 4).acknowledge a, none) := by
      unfold exciseAcknowledge
      rw [if_neg (fun h => h hlen), if_neg (by simp), hi]
    refine ⟨fun h => ?_, fun h hf => ?_, fun h hf => ⟨fun hout => ?_, fun hlo hhi hm hl hscan => ?_⟩⟩
    · refine congrArg Host.Outcome.next (State.requestArrives_says h ?_)
      unfold exciseAcknowledge
      rw [if_neg (fun h => h hlen), if_pos (by decide)]
    · exact congrArg Host.Outcome.next (State.requestArrives_says h (hack.trans (if_pos hf)))
    · refine congrArg Host.Outcome.next (State.requestArrives_says h (hack.trans ?_))
      rw [if_neg (by rw [hf]; decide), if_pos hout]
    · have hbegun : exciseAcknowledge .excise r (s.received .excise) =
          (((s.received .excise).beginLong .excise r 6 4).acknowledge a, none) := by
        rw [hack, if_neg (by rw [hf]; decide), if_neg (by omega)]
      have hexec : exec (.exciseAcknowledgeExport r) s = .next (s.requestArrives 6 4 exciseAcknowledge r).settle := rfl
      have hbe : ((s.received .excise).beginLong .excise r 6 4).excise = { s.excise with idle := i } := hi
      rw [hexec, State.requestArrives_begins h hbegun, State.acknowledge_eq (by rw [hbe]; exact hf) (by rw [hbe]; exact hm) (by rw [hbe]; exact hl)]
      exact congrArg Host.Outcome.next (State.settle_emit_scan (s := State.onExcise _ _) (State.takes_iff.1 h).1 hscan)

end Sys2Proof.Machine
end

section
/-! PROOFS. The COMMIT of an excise table, entry by entry (R147). -/

namespace Sys2Proof.Machine

-- One declaration after the other: side by side, their stacks are more than the check's bound on memory.
set_option Elab.async false

/-! ## The entries of a COMMIT -/

theorem State.writeChanges_eq (s : State) (id i : Nat) (vs : List Nat) :
    s.writeChanges id i vs = (vs.zipIdx i).foldl (fun u p => u.writeEntry
      { number := 0, kind := kTABLE, quantity := p.1, a0 := id, a1 := p.2 }) s := by
  induction vs generalizing s i with
  | nil => rfl
  | cons v vs ih =>
    unfold State.writeChanges
    rw [ih, List.zipIdx_cons, List.foldl_cons]

/-- With numbers left for them all, the entries of a COMMIT change the excise unit alone, and do not end in STORE_FAULT. -/
theorem State.writeChanges_room {s : State} (hf : s.excise.storeFault = false) (id i : Nat) (vs : List Nat)
    (hn : s.excise.now.next + vs.length < max32) :
    ∃ g, s.writeChanges id i vs = s.onExcise g ∧ (g s.excise).storeFault = false ∧ (g s.excise).now.tables = s.excise.now.tables := by
  induction vs generalizing s i with
  | nil => exact ⟨fun e => e, rfl, hf, rfl⟩
  | cons v vs ih =>
    rw [List.length_cons] at hn
    have hroom := State.writeEntry_room (s := s) { number := 0, kind := kTABLE, quantity := v, a0 := id, a1 := i } hf (by omega)
    unfold State.writeChanges
    rw [hroom]
    generalize hx : s.stampEntry { number := 0, kind := kTABLE, quantity := v, a0 := id, a1 := i } = x
    let f : Excise → Excise := fun u => { u with
      now := { u.now with next := u.now.next + 1, chain := x.chain }
      slots := u.slots.put (slotOf u.now.next) x
      fresh := u.fresh ++ [x] }
    have hnext : (s.onExcise f).excise.now.next + vs.length < max32 := by
      show s.excise.now.next + 1 + vs.length < max32
      omega
    obtain ⟨g, hg, hgf, hgt⟩ := ih (s := s.onExcise f) hf (i + 1) hnext
    exact ⟨fun e => g (f e), hg, hgf, hgt⟩

/-- The four excise tables. -/
theorem exciseTable_cases {id : Byte} (h11 : 11 ≤ id.toNat) (h14 : id.toNat ≤ 14) : id = 11 ∨ id = 12 ∨ id = 13 ∨ id = 14 := by
  have hid : id.toNat = 11 ∨ id.toNat = 12 ∨ id.toNat = 13 ∨ id.toNat = 14 := by omega
  exact hid.imp (BitVec.eq_of_toNat_eq) (Or.imp (BitVec.eq_of_toNat_eq) (Or.imp (BitVec.eq_of_toNat_eq) (BitVec.eq_of_toNat_eq)))

theorem ExciseTables.ok_iff (t : ExciseTables) {id : Byte} (h11 : 11 ≤ id.toNat) (h14 : id.toNat ≤ 14) :
    t.ok id.toNat = true ↔ ¬ ((id = 11 ∧ (8 < t.castDraws ∨ 8 < t.loadDraws ∨ 8 < t.stripDraws ∨ 100 < t.tolerance)) ∨
      (id = 12 ∧ 65535 < t.seed) ∨ (id = 13 ∧ (t.terminal = 0 ∨ 255 < t.terminal)) ∨ (id = 14 ∧ 4294967295 < t.code)) := by
  rcases exciseTable_cases h11 h14 with rfl | rfl | rfl | rfl <;> simp [ExciseTables.ok, max16, max32] <;> omega

theorem ExciseTables.changes_eq (t : ExciseTables) {id : Byte} (h11 : 11 ≤ id.toNat) (h14 : id.toNat ≤ 14) :
    t.changes id.toNat = if id = 11 then [t.castDraws, t.loadDraws, t.stripDraws, t.tolerance]
      else if id = 13 then [t.terminal] else [0] := by
  rcases exciseTable_cases h11 h14 with rfl | rfl | rfl | rfl <;> rfl

theorem ExciseTables.take_eq (t u : ExciseTables) {id : Byte} (h11 : 11 ≤ id.toNat) (h14 : id.toNat ≤ 14) :
    t.take u id.toNat = if id = 11 then { t with
        castDraws := u.castDraws, loadDraws := u.loadDraws, stripDraws := u.stripDraws, tolerance := u.tolerance }
      else if id = 12 then { t with seed := u.seed }
      else if id = 13 then { t with terminal := u.terminal }
      else { t with code := u.code } := by
  rcases exciseTable_cases h11 h14 with rfl | rfl | rfl | rfl <;> rfl

/-- The checks of a COMMIT of an excise table, in the model's order. -/
theorem tableCommit_excise {s : State} {r : Request} {id : Byte} (hargs : r.args = [id]) (h11 : 11 ≤ id.toNat) (h14 : id.toNat ≤ 14)
    (o : Originator) : tableCommit o r s = if s.tableRight o id.toNat ≠ .ok then s.says (s.tableRight o id.toNat)
      else if ¬ s.excise.staged.ok id.toNat = true then s.says .badArgument
      else if id.toNat = idTerminal ∧ (s.excise.staged.terminal = s.ownAddr ∨ s.excise.staged.terminal = s.plantAddr)
        then s.says .badArgument
      else if s.excise.avail < (s.excise.staged.changes id.toNat).length then s.full
      else ((s.beginLong o r 1 2).commitExcise id.toNat, none) := by
  have hent : (entriesOf id.toNat).isSome = true := by
    rcases exciseTable_cases h11 h14 with rfl | rfl | rfl | rfl <;> rfl
  have hexc : exciseTable id.toNat = true := by
    rcases exciseTable_cases h11 h14 with rfl | rfl | rfl | rfl <;> rfl
  unfold tableCommit
  rw [hargs]
  dsimp only
  obtain ⟨n, hn⟩ := Option.isSome_iff_exists.1 hent
  rw [hn, hexc]
  dsimp only
  rw [if_pos rfl]
  refine if_congr Iff.rfl rfl ?_
  unfold State.commitExciseOk
  dsimp only
  by_cases hok : s.excise.staged.ok id.toNat = true
  · rw [if_neg (by rw [hok]; decide), if_neg (not_not.2 hok)]
    by_cases hclash : id.toNat = idTerminal ∧ (s.excise.staged.terminal = s.ownAddr ∨ s.excise.staged.terminal = s.plantAddr)
    · rw [if_pos hclash, if_pos hclash]
    · rw [if_neg hclash, if_neg hclash]
      by_cases hspace : s.excise.avail < (s.excise.staged.changes id.toNat).length
      · rw [if_pos hspace, if_pos hspace]
      · rw [if_neg hspace, if_neg hspace]
  · rw [if_pos (by rw [Bool.eq_false_iff.2 hok]; rfl), if_pos hok]

theorem State.onExcise_congr {s : State} {f g : Excise → Excise} (h : f s.excise = g s.excise) : s.onExcise f = s.onExcise g := by
  unfold State.onExcise
  rw [h]

/-- An accepted COMMIT: its entries, the table, the generator's state for the seed, and the copy that the reply waits for. -/
theorem State.commitExcise_eq {s : State} (hf : s.excise.storeFault = false) {id : Nat}
    (hn : s.excise.now.next + (s.excise.staged.changes id).length < max32) :
    (s.work = [] → s.noScan = true → (s.commitExcise id).settle = ((s.writeChanges id 0 (s.excise.staged.changes id)).onExcise fun e => { e with
      now := { e.now with
        tables := e.now.tables.take s.excise.staged id, gen := if id = idSeed then s.excise.staged.seed else e.now.gen } }
      ).closeEvent true) := by
  intro hw hscan
  let s1 : State := (s.writeChanges id 0 (s.excise.staged.changes id)).onExcise fun e => { e with
    now := { e.now with
      tables := e.now.tables.take s.excise.staged id, gen := if id = idSeed then s.excise.staged.seed else e.now.gen } }
  obtain ⟨g, hg, hgf, -⟩ := State.writeChanges_room hf id 0 _ hn
  have hs1 : s1.excise.storeFault = false ∧ s1.work = [] ∧ s1.noScan = true := by
    unfold s1
    rw [hg]
    exact ⟨hgf, hw, hscan⟩
  have hclose := State.closeEvent_room hs1.1 true
  have hlong : s1.closeLong = s1.closeEvent true := by
    unfold State.closeLong
    dsimp only
    rw [hclose]
    exact if_neg (by rw [State.onExcise_excise, hs1.1]; decide)
  show (if id = idDrawPlan then s1.closeLong.emit .scan else s1.closeLong).settle = s1.closeEvent true
  rw [hlong]
  split
  · exact State.settle_emit_scan (by rw [hclose]; exact hs1.2.1) (by rw [hclose]; exact hs1.2.2)
  · exact State.settle_of_idle (by rw [hclose]; exact hs1.2.1)

/-- Settles O57, by the checks of the COMMIT in their order. -/
theorem exciseCommitIsRegistered : Obligations.ExciseCommitIsRegistered := by
  intro s r id hargs h11 h14 st changes say
  obtain ⟨i, hi⟩ := s.received_excise_idle
  have hexc : exciseTable id.toNat = true := by
    rcases exciseTable_cases h11 h14 with rfl | rfl | rfl | rfl <;> rfl
  have hchanges : (s.received .excise).excise.staged.changes id.toNat = changes := by
    rw [hi]
    exact ExciseTables.changes_eq _ h11 h14
  have hcommit := fun o => tableCommit_excise (s := s.received o) hargs h11 h14 o
  refine ⟨fun h => ?_, fun h hl => ?_, fun h hl => ?_⟩
  · refine congrArg Host.Outcome.next (State.requestArrives_says h ((hcommit .plant).trans ?_))
    have hright : (s.received .plant).tableRight .plant id.toNat = .notPermitted := by
      unfold State.tableRight
      rw [if_pos hexc, if_pos (by decide)]
    rw [hright, if_pos (by decide)]
  · refine congrArg Host.Outcome.next (State.requestArrives_says h ((hcommit .excise).trans ?_))
    have hright : (s.received .excise).tableRight .excise id.toNat = .locked := by
      unfold State.tableRight
      rw [if_pos hexc, if_neg (by decide), hi, if_pos hl]
    rw [hright, if_pos (by decide)]
  · intro clash outside wrong
    have hright : (s.received .excise).tableRight .excise id.toNat = .ok := by
      unfold State.tableRight
      rw [if_pos hexc, if_neg (by decide), hi, if_neg (by rw [hl]; decide)]
    have hok : (s.received .excise).excise.staged.ok id.toNat = true ↔ ¬ outside := by
      rw [hi]
      exact ExciseTables.ok_iff _ h11 h14
    have hclash : id.toNat = idTerminal ∧ ((s.received .excise).excise.staged.terminal = (s.received .excise).ownAddr ∨
        (s.received .excise).excise.staged.terminal = (s.received .excise).plantAddr) ↔ clash := by
      rw [hi]
      exact and_congr_left fun _ => ⟨fun h => BitVec.eq_of_toNat_eq h, fun h => congrArg BitVec.toNat h⟩
    have havail : (s.received .excise).excise.avail = s.excise.avail := by
      rw [hi]
      rfl
    have hcommit := hcommit .excise
    rw [hright, if_neg (by decide), if_congr (not_congr hok) rfl rfl, if_congr hclash rfl rfl, havail, hchanges] at hcommit
    refine ⟨fun hwrong => ?_, fun hwrong hspace => ?_, fun hwrong hspace hn hscan => ?_⟩
    · refine congrArg Host.Outcome.next (State.requestArrives_says h (hcommit.trans ?_))
      by_cases hout : outside
      · exact if_pos (not_not.2 hout)
      · rw [if_neg (not_not.2 hout), if_pos (hwrong.resolve_right hout)]
    · refine congrArg Host.Outcome.next (State.requestArrives_settles h (a := .of .exciseFull)
        (t := (s.received .excise).post .excise .excise 0 3 (s.excise.free : Nat)) (hcommit.trans ?_)
        ((State.post_work ..).trans (State.takes_iff.1 h).1))
      rw [if_neg (not_not.2 fun hout => hwrong (.inr hout)), if_neg fun hc => hwrong (.inl hc), if_pos hspace]
      unfold State.full State.postFull State.postExcise
      rw [hi]
      rfl
    · intro begun written t adopted
      have hbegun : tableCommit .excise r (s.received .excise) = (begun.commitExcise id.toNat, none) := by
        rw [hcommit, if_neg (not_not.2 fun hout => hwrong (.inr hout)), if_neg fun hc => hwrong (.inl hc),
          if_neg (Nat.not_lt.2 hspace)]
        rfl
      have hbe : begun.excise = { s.excise with idle := i } := hi
      have hlen : changes.length ≤ 4 ∧ 1 ≤ changes.length := by
        unfold changes
        split
        · exact ⟨Nat.le_refl 4, Nat.succ_pos 3⟩
        · split <;> exact ⟨Nat.succ_le_succ (Nat.zero_le 3), Nat.le_refl 1⟩
      have hchanges' : begun.excise.staged.changes id.toNat = changes := hchanges
      have hfault : begun.excise.storeFault = false := by
        rw [hbe]
        exact Excise.storeFault_of_avail (Nat.le_trans hlen.2 hspace)
      have hnext : begun.excise.now.next + (begun.excise.staged.changes id.toNat).length < max32 := by
        rw [hchanges', hbe]
        exact Nat.lt_of_le_of_lt (Nat.add_le_add_left hlen.1 _) hn
      have hsettled := State.commitExcise_eq hfault hnext (State.takes_iff.1 h).1 hscan
      have hexec : exec (.tableCommit r) s = .next (s.requestArrives 1 2 tableCommit r).settle := rfl
      have hwritten : begun.writeChanges id.toNat 0 changes = written := State.writeChanges_eq ..
      have htables : written.excise.now.tables = t := by
        obtain ⟨g, hg, -, hgt⟩ := State.writeChanges_room hfault id.toNat 0 changes (hchanges' ▸ hnext)
        rw [← hwritten, hg]
        exact hgt.trans (by rw [hbe])
      have hadopted : t.take st id.toNat = adopted := ExciseTables.take_eq _ _ h11 h14
      have hstaged : begun.excise.staged = st := by rw [hbe]
      have hseed : id.toNat = idSeed ↔ id = 12 := ⟨fun h => BitVec.eq_of_toNat_eq h, fun h => congrArg BitVec.toNat h⟩
      rw [hexec, State.requestArrives_begins h hbegun, hsettled, hchanges', hwritten]
      refine congrArg (fun u : State => Host.Outcome.next (u.closeEvent true)) (State.onExcise_congr ?_)
      rw [htables, hstaged, if_congr hseed rfl rfl, hadopted]

end Sys2Proof.Machine
end

section
/-! PROOFS. The transferred mass and the draws of a transfer, and the ends of a transfer (R123, R126 to R129, R132). -/

namespace Sys2Proof.Machine

-- One declaration after the other: side by side, their stacks are more than the check's bound on memory.
set_option Elab.async false

/-! ## Deliveries of the run's measurement points -/

theorem State.onTransfer_onTransfer (s : State) (f g : TransferRun → TransferRun) :
    (s.onTransfer f).onTransfer g = s.onTransfer fun u => g (f u) := rfl

/-- The running transfer's record, set whole. -/
def State.nowRunning (s : State) (r : Running) : State := s.onTransfer fun u => { u with running := some r }

theorem State.onRun_nowRunning {s : State} {r : Running} (h : s.transfer.running = some r) (f : Running → Running) :
    s.onRun f = s.nowRunning (f r) := State.onRun_eq h f

theorem State.nowRunning_onRun (s : State) (r : Running) (f : Running → Running) :
    (s.nowRunning r).onRun f = s.nowRunning (f r) := State.onRun_eq (s := s.nowRunning r) rfl f

theorem State.deliver_weigher {s : State} {n : Nat} {e : MpEntry} (ho : e.owner = .run) (hr : e.role = .weigherTotal)
    (hn : s.mpOf .run e.role = some n) (x : MpValue) : s.deliver n e x = s.weigherTotal x.val := by
  unfold State.deliver
  rw [ho, if_neg (fun h => h hn), hr]

theorem State.deliver_drawer {s : State} {n : Nat} {e : MpEntry} (ho : e.owner = .run) (hr : e.role = .drawerState)
    (hn : s.mpOf .run e.role = some n) (x : MpValue) : s.deliver n e x = s.drawerReports x.val := by
  unfold State.deliver
  rw [ho, if_neg (fun h => h hn), hr]

/-! ## Draws (R126, R127) -/

/-- In RUNNING with a draw outstanding, or with the next point not reached or none left, no draw is offered. -/
theorem State.drawTest_waits {s : State} {r : Running} (hr : s.transfer.running = some r) (hs : r.state = .running)
    (h : r.out.isSome = true ∨ ∀ p, r.points[r.next]? = some p → r.mass < p) : s.drawTest = s := by
  unfold State.drawTest
  rw [hr]
  dsimp only
  split
  · next p hp =>
    refine if_neg fun ⟨hout, hdue⟩ => ?_
    rcases h with h | h
    · rw [Option.isNone_iff_eq_none.1 hout] at h
      exact Bool.noConfusion h
    · rcases hdue with hdue | hdue
      · exact absurd hdue.2 (Nat.not_le.2 (h p hp))
      · exact nomatch hs.symm.trans hdue
  · rfl

theorem State.doneTest_running {s : State} {r : Running} (hr : s.transfer.running = some r) (hs : r.state = .running) :
    s.doneTest = s := by
  unfold State.doneTest
  rw [hr]
  exact if_neg fun h => TransferState.noConfusion (hs.symm.trans h.1)

/-- In RUNNING a point that is reached is offered as a draw. -/
theorem State.drawTest_offers {s : State} {r : Running} {g : RunCfg} {p : Nat} (hr : s.transfer.running = some r)
    (hg : s.tables.transfer.run = some g) (hs : r.state = .running) (ho : r.out = none) (hp : r.points[r.next]? = some p)
    (hm : p ≤ r.mass) (hroom : s.roomFor g.drawer cDRAW .sequencer = true) :
    s.drawTest = (s.nowRunning { r with
      next := r.next + 1, draw := some (g.drawLimit * 10)
      out := some { index := r.next, late := false, massAt := r.mass, sampleAt := s.drawerAtRest
                    serial := s.filter.serial } }).queued g.drawer cDRAW s.noArg .sequencer .draw := by
  unfold State.drawTest
  rw [hr]
  dsimp only
  rw [hp]
  dsimp only
  rw [if_pos ⟨by rw [ho]; rfl, .inl ⟨hs, hm⟩⟩]
  unfold State.offerDraw State.runTimer
  dsimp only
  have hlate : decide (r.state = .clearing) = false := by
    rw [hs]
    rfl
  rw [hg, hlate, State.onRun_nowRunning hr]
  let r' : Running := { r with
    next := r.next + 1, draw := some (g.drawLimit * 10)
    out := some { index := r.next, late := false, massAt := r.mass, sampleAt := s.drawerAtRest, serial := s.filter.serial } }
  exact State.send_room (s := s.nowRunning r') hroom (by decide) rfl (by decide)

/-- The draw that is outstanding completes in RUNNING, with no further draw due. -/
theorem State.drawComplete_running {s : State} {r : Running} {o : DrawOut} {v : Int} {m : Nat} {b : Batch}
    (hr : s.transfer.running = some r) (ho : r.out = some o) (hv : o.report = some v) (hc : o.confirmed = true)
    (hb : s.batchAt r.source = some (m, b)) (hs : r.state = .running) (hp : ∀ p, r.points[r.next]? = some p → r.mass < p)
    (hf : s.excise.storeFault = false) (hn : s.excise.now.next < max32) :
    s.drawComplete = ((((((s.nowRunning { r with draw := none, left := r.left - 1, out := none }).onExcise fun u =>
      { u with now := { u.now with reservation := u.now.reservation - 1 } }).writeEntry (r.drawEntry o v)).closeEvent false).onSlot
        m fun b => { b with draws := min 255 (b.draws + 1) })).post .draw .transfer r.source.val o.index v := by
  let r1 : Running := { r with draw := none, left := r.left - 1, out := none }
  let held : State := (s.nowRunning r1).onExcise fun u => { u with now := { u.now with reservation := u.now.reservation - 1 } }
  obtain ⟨g, hg⟩ := State.writeEvent_room (s := held) (r.drawEntry o v) false hf hn
  have hwrite : ((s.nowRunning r1).writeTransferEntry (r.drawEntry o v)).closeEvent false = held.onExcise g := by
    unfold State.writeTransferEntry
    rw [if_neg (by rw [show (s.nowRunning r1).excise.storeFault = false from hf]; decide)]
    exact hg
  have hbatch : (held.onExcise g).batchAt r.source = some (m, b) := hb
  let t : State := ((held.onExcise g).onSlot m fun b => { b with draws := satAdd 255 b.draws 1 }).post .draw .transfer r.source.val o.index v
  have ht : t.transfer.running = some r1 := congrArg TransferRun.running (State.post_transfer ..)
  unfold State.drawComplete
  rw [hr]
  dsimp only
  rw [ho]
  dsimp only
  rw [hv]
  dsimp only
  rw [if_pos hc, State.onRun_nowRunning hr, hwrite, hbatch]
  show t.drawTest.doneTest = _
  rw [State.drawTest_waits ht hs (.inr hp), State.doneTest_running ht hs, hg]
  rfl

/-- Settles O32: the weigher's rise by the state and the next point, and the drawer's report by its value and the draw. -/
theorem drawsFollowTheMass : Obligations.DrawsFollowTheMass := by
  intro s n e x r g hr ho hn hg v now
  have hnow : ∀ f, s.onRun f = now f := fun f => State.onRun_eq hr f
  refine ⟨fun hrole => ?_, fun hrole o hout => ?_⟩
  · intro m
    have hdel : s.deliver n e x = if (r.mass : Int) < m then
        (if r.state = .running then (now fun r => { r with mass := m.toNat, noFlow := some (g.noFlow * 10) }).drawTest
          else now fun r => { r with mass := m.toNat }) else s := by
      rw [State.deliver_weigher ho hrole hn x]
      unfold State.weigherTotal State.runTimer
      rw [hr, hg]
      dsimp only
      rw [State.onRun_nowRunning hr, State.nowRunning_onRun]
      rfl
    rw [hdel]
    refine ⟨fun hle => if_neg (Int.not_lt.2 hle), fun hlt => ?_⟩
    rw [if_pos hlt]
    refine ⟨fun hs => if_neg hs, fun hs => ?_⟩
    rw [if_pos hs]
    let r' : Running := { r with mass := m.toNat, noFlow := some (g.noFlow * 10) }
    refine ⟨fun h => State.drawTest_waits (s := s.nowRunning r') (r := r') rfl hs h, fun p hnone hp hm hroom => ?_⟩
    exact State.drawTest_offers (s := s.nowRunning r') (r := r') rfl hg hs hnone hp hm hroom
  · have hdel : s.deliver n e x = s.drawerReports v := State.deliver_drawer ho hrole hn x
    have hreports : s.drawerReports v = if v = -2 then s.abortRun .drawerFault
        else if 0 ≤ v ∧ o.sampleAt ≠ some v ∧ o.report.isNone = true then
          (s.onRun fun r => { r with out := some { o with report := some v } }).drawComplete
        else s := by
      unfold State.drawerReports
      rw [hr, Option.bind_some, hout]
    rw [hdel, hreports]
    refine ⟨fun h => ?_, fun h0 hsam hrep => ?_, fun leg hv hroute hroom hst => ?_⟩
    · rw [if_neg (by omega), if_neg]
      rintro ⟨h0, hsam, hrep⟩
      rcases h with h | h | ⟨-, h | h⟩
      · omega
      · omega
      · exact hsam h
      · rw [Option.isNone_iff_eq_none.1 hrep] at h
        exact Bool.noConfusion h
    · rw [if_neg (by omega), if_pos ⟨h0, hsam, by rw [hrep]; rfl⟩, hnow]
      refine ⟨fun hc => ?_, fun m b hc hb hs hp hf hnext => ?_⟩
      · unfold State.drawComplete
        exact if_neg (by rw [hc]; decide)
      · intro held entry
        refine ⟨⟨rfl, rfl, rfl, rfl, rfl, rfl, rfl⟩, ?_⟩
        let r' : Running := { r with out := some { o with report := some v } }
        exact State.drawComplete_running (s := s.nowRunning r') (r := r') (o := { o with report := some v }) rfl rfl rfl hc hb hs hp hf hnext
    · rw [if_pos hv]
      exact State.abortRun_begins hr hroute hroom hst _

end Sys2Proof.Machine
end

section
/-! PROOFS. Transfers that are DONE or aborted (R10, R12, R56, R67, R98, R129, R132). -/

namespace Sys2Proof.Machine

-- One declaration after the other: side by side, their stacks are more than the check's bound on memory.
set_option Elab.async false

/-! ## The register's entry of the end (R142, R143) -/

/-- The end of a transfer takes what is left of its reservation back. -/
def Excise.release (u : Excise) : Excise := { u with now := { u.now with reservation := 0, openNo := 0 } }

/-- The entry of the end changes the excise unit alone, and no mark of it. -/
theorem State.writeEntry_keeps {s : State} (e : Entry) (hf : s.excise.storeFault = false) (hn : s.excise.now.next < max32) :
    ∃ g, s.writeEntry e = s.onExcise g ∧ (g s.excise).storeFault = false ∧
      (g s.excise).now.restart = s.excise.now.restart ∧ (g s.excise).pendingLock = s.excise.pendingLock :=
  ⟨_, State.writeEntry_room e hf hn, hf, rfl, rfl⟩

/-- The last entry of a transfer releases what is left of its reservation, where no mark waits for space. -/
theorem State.closeTransfer_eq {s : State} (e : Entry) (hf : s.excise.storeFault = false) (hn : s.excise.now.next < max32)
    (hm : s.excise.now.restart = none) (hl : s.excise.pendingLock = none) :
    ((s.writeTransferEntry e).releaseEntries).closeEvent false = ((s.writeEntry e).onExcise Excise.release).closeEvent false := by
  let held : State := s.onExcise fun u => { u with now := { u.now with reservation := u.now.reservation - 1 } }
  have hwrite : s.writeTransferEntry e = held.writeEntry e := by
    unfold State.writeTransferEntry
    exact if_neg (by rw [hf]; decide)
  have hrel : (held.writeEntry e).onExcise Excise.release = (s.writeEntry e).onExcise Excise.release := by
    rw [State.writeEntry_room (s := held) e hf hn, State.writeEntry_room e hf hn]
    rfl
  obtain ⟨g, hg, -, hgm, hgl⟩ := State.writeEntry_keeps e hf hn
  have hmarks : ((s.onExcise g).onExcise Excise.release).writeMarks = (s.onExcise g).onExcise Excise.release := by
    unfold State.writeMarks
    rw [State.writeRestartMark_of_none (s := (s.onExcise g).onExcise Excise.release) (hgm.trans hm),
      State.writeLockMark_of_none (s := (s.onExcise g).onExcise Excise.release) (hgl.trans hl)]
  have hrelease : (held.writeEntry e).releaseEntries = ((held.writeEntry e).onExcise Excise.release).writeMarks := rfl
  rw [hwrite, hrelease, hrel, hg, hmarks]

/-- It changes the excise unit alone. -/
theorem State.closeTransfer_room {s : State} (e : Entry) (hf : s.excise.storeFault = false) (hn : s.excise.now.next < max32) :
    ∃ g, ((s.writeEntry e).onExcise Excise.release).closeEvent false = s.onExcise g := by
  obtain ⟨g, hg, hgf, -⟩ := State.writeEntry_keeps e hf hn
  rw [hg, State.closeEvent_room (s := (s.onExcise g).onExcise Excise.release) hgf]
  exact ⟨fun u => { (g u).release with
    jobs := (g u).release.jobs ++ [{ entries := (g u).release.fresh, counters := (g u).release.now, reply := false }]
    fresh := [] }, rfl⟩

/-! ## The batch in its vessel -/

/-- A change of the batch in a vessel that leaves its place leaves it in the vessel. -/
theorem Tbl.find?_put {α : Type} {t : Tbl α} {P : Nat × α → Bool} {n : Nat} {a b : α} {f : α → α} (hP : P (n, f a) = P (n, a))
    (ha : t.get n = some a) (hb : t.find? P = some (n, b)) : ∃ b', (t.put n (f a)).find? P = some (n, b') := by
  have hnew : ∀ l : List (Nat × α), l.find? P = some (n, b) → ∃ b', ((n, f a) :: l).find? P = some (n, b') := fun l hl => by
    by_cases hp : P (n, f a) = true
    · exact ⟨f a, List.find?_cons_of_pos hp⟩
    · exact ⟨b, (List.find?_cons_of_neg hp).trans hl⟩
  induction t with
  | nil => exact nomatch hb
  | cons e t ih =>
    obtain ⟨k, x⟩ := e
    rw [Tbl.get_cons] at ha
    unfold Tbl.put
    split_ifs with hlt heq
    · exact hnew _ hb
    · obtain rfl := heq
      obtain rfl := Option.some.inj ((if_pos rfl).symm.trans ha)
      by_cases hp : P (n, x) = true
      · exact ⟨f x, List.find?_cons_of_pos (hP.trans hp)⟩
      · exact hnew t ((List.find?_cons_of_neg hp).symm.trans hb)
    · rw [if_neg (Ne.symm heq)] at ha
      by_cases hp : P (k, x) = true
      · have hkn := Option.some.inj ((List.find?_cons_of_pos hp).symm.trans hb)
        exact absurd (congrArg Prod.fst hkn).symm heq
      · rw [List.find?_cons_of_neg hp] at hb ⊢
        exact ih ha hb

theorem State.batchAt_onSlot {s : State} {v : Fin 12} {n : Nat} {b : Batch} (h : s.batchAt v = some (n, b)) {f : Batch → Batch}
    (hs : ∀ b, (f b).state = b.state) (hv : ∀ b, (f b).vessel = b.vessel) : ∃ b', (s.onSlot n f).batchAt v = some (n, b') := by
  show ∃ b', (s.batch.slots.upd n f).find? _ = _
  unfold Tbl.upd
  split
  · next a ha => exact Tbl.find?_put (f := f) (by dsimp only; rw [hs, hv]) ha h
  · exact ⟨b, h⟩

/-! ## Kilns that become EMPTY (R98) -/

theorem State.phaseCode_kiln (s : State) (k : Fin 2) : s.phaseCode (kilnNo k) = (s.kiln k).phase.code := by
  unfold State.phaseCode
  rw [vesselIs_kilnNo]

theorem State.kilnTo_eq (s : State) (k : Fin 2) (p : KilnState) :
    s.kilnTo k p = (s.onKiln k fun x => { x with phase := p }).post .phase .vessel (kilnNo k).val p.code (s.kiln k).index := by
  unfold State.kilnTo State.postPhase State.postVessel
  rw [State.phaseCode_kiln, State.onKiln_kiln_same]

theorem State.onKiln_self {s : State} {k : Fin 2} {f : Kiln → Kiln} (h : f (s.kiln k) = s.kiln k) : s.onKiln k f = s := by
  unfold State.onKiln
  rw [onBank_self h]

/-- The grant that a kiln has already changes nothing. -/
theorem State.changeGrant_same {s : State} {k : Fin 2} {g : Nat} (h : (s.kiln k).grant = g) : s.changeGrant k g = s := by
  have hself : (s.onKiln k fun y => { y with grant := g }) = s := State.onKiln_self (by rw [← h])
  have hset : s.setGrant k g = s := by
    unfold State.setGrant
    dsimp only
    rw [h, hself, if_neg (Nat.lt_irrefl g), if_neg fun hlt => Nat.lt_irrefl g hlt.1]
  unfold State.changeGrant
  rw [hset, h]
  exact if_neg (Nat.lt_irrefl g)

theorem State.evalGate_shut {s : State} {k : Fin 2} (hf : (s.kiln k).fields = none) (hg : (s.kiln k).gate = false) :
    s.evalGate k = s := by
  have hwant : s.gateWanted k = false := by
    unfold State.gateWanted
    rw [hf]
  unfold State.evalGate State.setGate
  rw [hwant]
  exact if_pos hg

theorem Role.airOn_eq_false {r : Role} (h : r ≠ .airOnTemp) : r.airOn = false := by
  unfold Role.airOn
  split
  · exact absurd rfl h
  · rfl

/-- No MP of a role, and none whose stage high limit a kiln's stages set. -/
theorem State.no_airOn {s : State} {k : Fin 2} (h : s.mpsOf (.vessel (kilnNo k)) .airOnTemp = []) :
    ∀ e ∈ s.tables.mp, e.2.owner = .vessel (kilnNo k) → e.2.role.airOn = false := fun e he hv =>
  Role.airOn_eq_false fun hr => by
    unfold State.mpsOf at h
    have hmem := List.filter_eq_nil_iff.1 (List.map_eq_nil_iff.1 h) e he
    exact hmem (decide_eq_true ⟨hv, hr⟩)

/-- A kiln without a grant, its gate shut and no AIR_ON_TEMP MP, becomes EMPTY. -/
theorem State.kilnEmpty_eq {s : State} {k : Fin 2} (hm : s.mpsOf (.vessel (kilnNo k)) .airOnTemp = [])
    (hg : (s.kiln k).grant = 0) (hgate : (s.kiln k).gate = false) :
    s.kilnEmpty k = ((s.onKiln k fun y => { y with index := 0, phase := .empty }).post .phase .vessel (kilnNo k).val 0
      0).onKiln k fun y => { y with
        cool := none, step := none, ring := [], peatTime := none, peatRem := 0, fields := none } := by
  let p : State := (s.onKiln k fun y => { y with index := 0, phase := .empty }).post .phase .vessel (kilnNo k).val 0 0
  have hto : (s.onKiln k fun x => { x with index := 0 }).kilnTo k .empty = p := by
    rw [State.kilnTo_eq, State.onKiln_onKiln, State.onKiln_kiln_same]
    rfl
  have hnone : ∀ e ∈ p.tables.mp, e.2.owner = .vessel (kilnNo k) → e.2.role.airOn = false := by
    rw [show p.tables = s.tables from State.post_tables ..]
    exact State.no_airOn hm
  have hkiln : p.kiln k = { s.kiln k with index := 0, phase := .empty } :=
    (State.post_kiln ..).trans (State.onKiln_kiln_same ..)
  unfold State.kilnEmpty
  dsimp only
  rw [hto, State.setStageHighs_none hnone, State.changeGrant_same (by rw [hkiln]; exact hg), State.evalGate_shut]
  · rw [State.onKiln_kiln_same]
  · rw [State.onKiln_kiln_same, hkiln]
    exact hgate

/-! ## DONE (R128, R129) -/

theorem deviation_eq (t e : Nat) : deviation t e = (if t ≤ e then e - t else t - e) * 1000 / e := by
  unfold deviation
  split
  · rw [Nat.max_eq_right ‹_›, Nat.min_eq_left ‹_›]
  · rw [Nat.max_eq_left (by omega), Nat.min_eq_right (by omega)]

theorem vesselOf_store : vesselOf 12 = none := rfl

/-- One STOP, to the one station of the route. -/
theorem State.offerStops_one {s : State} {leg : RouteLeg} (h : s.roomFor leg.step.station cSTOP .override = true) (p : Purpose) :
    s.offerStops p [leg] = (s.queued leg.step.station cSTOP s.noArg .override p, [{ serial := s.filter.serial }]) := by
  unfold State.offerStops
  rw [State.send_room h (by decide) rfl (by decide)]
  rfl

/-- The STRIP entry of a transfer out of kiln k (Table 7-3). -/
def Running.stripEntry (r : Running) (k : Fin 2) (flags : Nat) : Entry :=
  { number := 0, kind := kSTRIP, flags, vessel := (kilnNo k).val, batch := r.batchId
    quantity := r.mass, computed := r.expected, a1 := 12 }

/-- The state in which the entry of a DONE transfer is written: the route stopped, and the batch marked where its mass deviates. -/
def State.stripped (s : State) (r : Running) (leg : RouteLeg) (k : Fin 2) (m : Nat) : State :=
  let a := (s.nowRunning { r with state := .done, runOn := none }).queued leg.step.station cSTOP s.noArg .override
    (.stopDone (kilnNo k))
  if s.excise.now.tables.tolerance < deviation r.mass r.expected
    then a.onSlot m fun x => { x with marks := { x.marks with massDeviation := true } } else a

/-- Clearing an integrator changes the batch unit alone. -/
theorem State.clearInteg_eq (s : State) (v : Fin 12) : ∃ g, s.clearInteg v = s.onBatch g := by
  unfold State.clearInteg State.onInteg
  split
  · exact ⟨_, rfl⟩
  · exact ⟨id, rfl⟩

/-- What a DONE strip leaves: its batch in the malt store, its kiln EMPTY, and no running transfer. -/
def State.stripLeft (t : State) (k : Fin 2) (m v : Nat) : State :=
  ((((((t.onSlot m fun x => { x with state := .done, vessel := 12 }).clearInteg (kilnNo k)).onKiln k fun y => { y with
    index := 0, phase := .empty }).post .phase .vessel (kilnNo k).val 0 0).onKiln k fun y => { y with
      cool := none, step := none, ring := [], peatTime := none, peatRem := 0, fields := none }).post .transfer .transfer
        (kilnNo k).val 4 v).onTransfer fun u => { u with running := none }

theorem State.stripLeft_keeps (t : State) (k : Fin 2) (m v : Nat) :
    (t.stripLeft k m v).work = t.work ∧ (t.stripLeft k m v).transfer.requests = t.transfer.requests := by
  obtain ⟨g, hg⟩ := State.clearInteg_eq (t.onSlot m fun x => { x with state := .done, vessel := 12 }) (kilnNo k)
  unfold State.stripLeft
  rw [hg]
  unfold State.onSlot
  constructor <;> simp

/-- No transfer runs, so that the arbiter has nothing to start without a request. -/
theorem State.stripLeft_noScan {t : State} (k : Fin 2) (m v : Nat) (h : t.transfer.requests = []) :
    (t.stripLeft k m v).noScan = true := by
  unfold State.noScan
  rw [(State.stripLeft_keeps t k m v).2, h]
  exact Bool.or_true _

/-- The end of a DONE strip, once its entry is written: the batch stands in the malt store, and the kiln is EMPTY. -/
theorem State.strip_leaves {t : State} {r : Running} {k : Fin 2} {m v : Nat} {b : Batch} (hk : r.kind = .strip)
    (hsrc : r.source = kilnNo k) (hdst : r.dest = 12) (hb : t.batchAt (kilnNo k) = some (m, b))
    (hmp : t.mpsOf (.vessel (kilnNo k)) .airOnTemp = []) (hg : (t.kiln k).grant = 0) (hgate : (t.kiln k).gate = false) :
    (((t.batchOutcome r true).tellEnd r true).postTransfer r.source .done v).runIdle = (t.stripLeft k m v).emit .scan := by
  have hvessel : vesselOf r.dest.val = none := by
    rw [hdst]
    exact vesselOf_store
  let p : State := (t.onSlot m fun x => { x with state := .done, vessel := 12 }).clearInteg (kilnNo k)
  have hout : t.batchOutcome r true = p := by
    unfold State.batchOutcome
    rw [hvessel, hsrc, hb, hk, hdst]
    rfl
  have htell : p.tellEnd r true = p.kilnEmpty k := by
    unfold State.tellEnd
    dsimp only
    rw [if_pos rfl, hvessel, hsrc]
    unfold State.vesselEmpties
    rw [vesselIs_kilnNo]
  rw [hout, htell, hsrc, State.kilnEmpty_eq (s := p) hmp hg hgate]
  rfl

theorem State.stripped_keeps {s : State} {r : Running} {leg : RouteLeg} {k : Fin 2} {m : Nat} {b : Batch}
    (hb : s.batchAt (kilnNo k) = some (m, b)) :
    (∃ b', (s.stripped r leg k m).batchAt (kilnNo k) = some (m, b')) ∧ (s.stripped r leg k m).excise = s.excise ∧
      (s.stripped r leg k m).tables = s.tables ∧ (s.stripped r leg k m).kilns = s.kilns ∧
      (s.stripped r leg k m).work = s.work ∧ (s.stripped r leg k m).transfer.requests = s.transfer.requests := by
  unfold State.stripped
  dsimp only
  split
  · exact ⟨State.batchAt_onSlot (s := (s.nowRunning _).queued leg.step.station cSTOP s.noArg .override _) hb (fun _ => rfl)
      (fun _ => rfl), rfl, rfl, rfl, rfl, rfl⟩
  · exact ⟨⟨b, hb⟩, rfl, rfl, rfl, rfl, rfl⟩

/-- A STRIP that is DONE: the batch stands in the malt store, and the kiln is EMPTY. -/
theorem State.transferDone_strip {s : State} {r : Running} {leg : RouteLeg} {k : Fin 2} {m : Nat} {b : Batch}
    (hr : s.transfer.running = some r) (hk : r.kind = .strip) (hsrc : r.source = kilnNo k) (hdst : r.dest = 12) (hroute : r.route = [leg])
    (hroom : s.roomFor leg.step.station cSTOP .override = true) (hb : s.batchAt (kilnNo k) = some (m, b))
    (hf : s.excise.storeFault = false) (hn : s.excise.now.next < max32) (hrm : s.excise.now.restart = none)
    (hpl : s.excise.pendingLock = none) (hmp : s.mpsOf (.vessel (kilnNo k)) .airOnTemp = []) (hg : (s.kiln k).grant = 0)
    (hgate : (s.kiln k).gate = false) :
    let w := (((s.stripped r leg k m).writeEntry (r.stripEntry k (if s.excise.now.tables.tolerance <
      deviation r.mass r.expected then 2 else 0))).onExcise Excise.release).closeEvent false
    s.transferDone r = ((w.onTransfer fun u => { u with reserved := none }).stripLeft k m (deviation r.mass r.expected)).emit
      .scan := by
  intro w
  let a : State := (s.nowRunning { r with state := .done, runOn := none }).queued leg.step.station cSTOP s.noArg .override
    (.stopDone (kilnNo k))
  have hstops : ((s.onRun fun r => { r with state := .done, runOn := none }).offerStops (.stopDone r.source) r.route).1 = a := by
    rw [State.onRun_nowRunning hr]
    exact (congrArg (fun l => ((s.nowRunning { r with state := .done, runOn := none }).offerStops (.stopDone r.source) l).1)
      hroute).trans ((congrArg Prod.fst (State.offerStops_one (s := s.nowRunning _) hroom _)).trans
        (congrArg (fun v => (s.nowRunning _).queued leg.step.station cSTOP s.noArg .override (.stopDone v)) hsrc))
  have hbatch : a.batchAt r.source = some (m, b) := by
    rw [hsrc]
    exact hb
  obtain ⟨⟨b', hb'⟩, hexc, htab, hkil, -⟩ := State.stripped_keeps (r := r) (leg := leg) (m := m) hb
  have hclose := State.closeTransfer_eq (s := s.stripped r leg k m)
    (r.stripEntry k (if s.excise.now.tables.tolerance < deviation r.mass r.expected then 2 else 0)) (by rw [hexc]; exact hf) (by rw [hexc]; exact hn) (by rw [hexc]; exact hrm) (by rw [hexc]; exact hpl)
  have hentry : { r.entry r.kind.entryKind r.mass r.expected with
      flags := if s.excise.now.tables.tolerance < deviation r.mass r.expected then fDEVIATION else 0 } =
        r.stripEntry k (if s.excise.now.tables.tolerance < deviation r.mass r.expected then 2 else 0) := by
    unfold Running.entry
    rw [hsrc, hdst, hk]
    rfl
  obtain ⟨g, hg'⟩ := State.closeTransfer_room (s := s.stripped r leg k m)
    (r.stripEntry k (if s.excise.now.tables.tolerance < deviation r.mass r.expected then 2 else 0)) (by rw [hexc]; exact hf) (by rw [hexc]; exact hn)
  have hw : w = (s.stripped r leg k m).onExcise g := hg'
  have hbw : (w.onTransfer fun u => { u with reserved := none }).batchAt (kilnNo k) = some (m, b') := by
    rw [hw]
    exact hb'
  have hmpw : (w.onTransfer fun u => { u with reserved := none }).mpsOf (.vessel (kilnNo k)) .airOnTemp = [] := by
    rw [hw]
    exact (congrArg (fun u : Tables => (u.mp.filter _).map Prod.fst) htab).trans hmp
  have hkw : (w.onTransfer fun u => { u with reserved := none }).kiln k = s.kiln k := by
    rw [hw]
    exact congrArg (bank · k) hkil
  have hgw : ((w.onTransfer fun u => { u with reserved := none }).kiln k).grant = 0 := by rw [hkw, hg]
  have hgatew : ((w.onTransfer fun u => { u with reserved := none }).kiln k).gate = false := by rw [hkw, hgate]
  unfold State.transferDone
  dsimp only
  rw [hstops, hbatch]
  simp only [decide_eq_true_eq]
  rw [hentry]
  exact (congrArg (fun c : State => (((((c.onTransfer fun u => { u with reserved := none }).batchOutcome r true).tellEnd r
    true).postTransfer r.source .done (deviation r.mass r.expected)).runIdle)) hclose).trans
      (State.strip_leaves (t := w.onTransfer fun u => { u with reserved := none }) hk hsrc hdst hbw hmpw hgw hgatew)

/-- A STRIP whose run-on expires with every draw complete is DONE. -/
theorem stripIsDone (s : State) (r : Running) (leg : RouteLeg) (k : Fin 2) (m : Nat) (b : Batch) (hw : s.work = [])
    (hr : s.transfer.running = some r) (hk : r.kind = .strip) (hst : r.state = .clearing) (ho : r.runOn = some 0)
    (hout : r.out = none) (hp : r.points.length ≤ r.next) (hsrc : r.source = kilnNo k) (hdst : r.dest = 12) (hroute : r.route = [leg])
    (hroom : s.roomFor leg.step.station cSTOP .override = true) (hb : s.batchAt (kilnNo k) = some (m, b))
    (hf : s.excise.storeFault = false) (hn : s.excise.now.next < max32) (hrm : s.excise.now.restart = none)
    (hpl : s.excise.pendingLock = none) (hmp : s.mpsOf (.vessel (kilnNo k)) .airOnTemp = []) (hg : (s.kiln k).grant = 0)
    (hgate : (s.kiln k).gate = false) (hq : s.transfer.requests = []) :
    let d := deviation r.mass r.expected
    let z : State := (s.onTransfer fun u => { u with running := some { r with state := .done, runOn := none, ranOn := true } }).queued
      leg.step.station cSTOP s.noArg .override (.stopDone (kilnNo k))
    let w := (((if s.excise.now.tables.tolerance < d then z.onSlot m fun x => { x with marks := { x.marks with
      massDeviation := true } } else z).writeEntry (r.stripEntry k (if s.excise.now.tables.tolerance < d then 2 else 0))).onExcise
        Excise.release).closeEvent false
    exec .runOnTimerExpiry s = .next ((w.onTransfer fun u => { u with reserved := none }).stripLeft k m d) := by
  intro d z w
  have hexec : exec .runOnTimerExpiry s = .next s.runOnExpires.settle := rfl
  let r' : Running := { r with runOn := none, ranOn := true }
  have hrun : s.runOnExpires = (s.nowRunning r').transferDone r' := by
    unfold State.runOnExpires
    rw [hr]
    dsimp only
    rw [if_pos ho, State.onRun_nowRunning hr]
    exact if_pos ⟨hst, rfl, by rw [hout]; rfl, hp⟩
  have hdone := State.transferDone_strip (s := s.nowRunning r') (r := r') (leg := leg) rfl hk hsrc hdst hroute hroom hb hf hn hrm hpl hmp
    hg hgate
  have hstate : (s.nowRunning r').stripped r' leg k m = (if s.excise.now.tables.tolerance < d then z.onSlot m fun x => { x with
      marks := { x.marks with massDeviation := true } } else z) := by
    rfl
  obtain ⟨_, hexc, _, _, hwork, hreq⟩ := State.stripped_keeps (s := s.nowRunning r') (r := r') (leg := leg) hb
  obtain ⟨g, hg'⟩ := State.closeTransfer_room (s := (s.nowRunning r').stripped r' leg k m) (r'.stripEntry k
    (if s.excise.now.tables.tolerance < d then 2 else 0)) (by rw [hexc]; exact hf) (by rw [hexc]; exact hn)
  rw [hexec, hrun]
  refine congrArg Host.Outcome.next ((congrArg State.settle hdone).trans ?_)
  have hend : w = ((s.nowRunning r').stripped r' leg k m).onExcise g := hstate ▸ hg'
  refine (State.settle_emit_scan (s := (w.onTransfer fun u => { u with reserved := none }).stripLeft k m d) ?_ ?_)
  · rw [(State.stripLeft_keeps ..).1, hend]
    exact hwork.trans hw
  · refine State.stripLeft_noScan (t := w.onTransfer _) k m d ?_
    rw [hend]
    exact hreq.trans hq

end Sys2Proof.Machine
end

section
/-! PROOFS. Aborted casts (R10, R56, R132), and both ends of a transfer. -/

namespace Sys2Proof.Machine

-- One declaration after the other: side by side, their stacks are more than the check's bound on memory.
set_option Elab.async false

/-- An event that prompts a scan, and the scan of an arbiter with nothing to start. -/
theorem State.settle_emit_then_scan {s t : State} {e : Event} (h : s.work = []) (he : s.takeEvent e = t.emit .scan)
    (ht : t.work = []) (hn : t.noScan = true) : (s.emit e).settle = t := by
  have hself : ({ s.emit e with work := [] } : State) = s := congrArg (fun w => { s with work := w }) h.symm
  have hback : ({ t.emit .scan with work := [] } : State) = t := congrArg (fun w => { t with work := w }) ht.symm
  unfold State.settle
  rw [State.takeEvents_succ (s := s.emit e) (congrArg (· ++ [e]) h) 65535, hself, he,
    State.takeEvents_succ (s := t.emit .scan) (congrArg (· ++ [Event.scan]) ht) 65534, hback]
  have hscan : t.takeEvent .scan = t := State.scan_of_noScan hn
  rw [hscan]
  exact State.takeEvents_of_idle ht _

/-! ## The two vessels of an aborted cast -/

/-- A steep out of AUTO waits for its cast again. -/
theorem State.steepCastBack_manual {s : State} {i : Fin 4} (hp : (s.steep i).phase ≠ .castWait) (hm : s.steepMode i ≠ .auto) :
    s.steepCastBack i = (s.onSteep i fun y => { y with phase := .castWait }).post .phase .vessel (steepNo i).val 7
      (s.steep i).index := by
  unfold State.steepCastBack
  dsimp only
  rw [if_neg hm, State.steepTo_ne hp]
  unfold State.postPhase State.postVessel
  rw [State.phaseCode_steep, State.onSteep_steep_same]
  rfl

/-- A compartment without bed probes becomes EMPTY. -/
theorem State.compEmpty_eq {s : State} {c : Fin 6}
    (h : ∀ e ∈ s.tables.mp, e.2.owner = .vessel (compNo c) → e.2.role.bed = false) :
    s.compEmpty c = (s.onComp c fun y => { y with
      phase := .empty, index := if y.index = 255 then 0 else y.index, stageTimer := none, interval := none, demand := none
      faults := 0, fields := none }).post .phase .vessel (compNo c).val 0
        (if (s.comp c).index = 255 then 0 else (s.comp c).index : Nat) := by
  unfold State.compEmpty
  rw [State.compTo_eq, State.setStageHighs_none, State.onComp_onComp, State.onComp_comp_same]
  · rfl
  · rw [State.post_tables]
    exact h

/-- What an aborted cast leaves: its batch in the steep, which waits for its cast, the compartment EMPTY, and no running
transfer. -/
def State.castLeft (t : State) (i : Fin 4) (c : Fin 6) (m now x y v : Nat) : State :=
  ((((((((t.onSlot m fun y => { y with state := .steeping, steepStart := some now }).clearInteg (compNo c)).onSteep i fun y => { y with
    phase := .castWait }).post .phase .vessel i.val 7 x).onComp c fun y => { y with
      phase := .empty, index := if y.index = 255 then 0 else y.index, stageTimer := none, interval := none, demand := none
      faults := 0, fields := none }).post .phase .vessel (compNo c).val 0 y).post .transfer .transfer i.val 5 v).onTransfer
        fun u => { u with running := none })

theorem State.castLeft_keeps (t : State) (i : Fin 4) (c : Fin 6) (m now x y v : Nat) :
    (t.castLeft i c m now x y v).work = t.work ∧ (t.castLeft i c m now x y v).mgmt = t.mgmt ∧
      (t.castLeft i c m now x y v).transfer.requests = t.transfer.requests := by
  obtain ⟨g, hg⟩ := State.clearInteg_eq (t.onSlot m fun y => { y with state := .steeping, steepStart := some now }) (compNo c)
  unfold State.castLeft
  rw [hg]
  unfold State.onSlot
  refine ⟨?_, ?_, ?_⟩ <;> simp

theorem State.castLeft_noScan {t : State} (i : Fin 4) (c : Fin 6) (m now x y v : Nat) (h : t.transfer.requests = []) :
    (t.castLeft i c m now x y v).noScan = true := by
  unfold State.noScan
  rw [(State.castLeft_keeps t i c m now x y v).2.2, h]
  exact Bool.or_true _

/-- The end of an aborted cast, once its entry is written. -/
theorem State.cast_returns {t : State} {r : Running} {i : Fin 4} {c : Fin 6} {m : Nat} {b : Batch} (hk : r.kind = .cast)
    (hsrc : r.source = steepNo i) (hdst : r.dest.val = (compNo c).val) (hb : t.batchAt (steepNo i) = some (m, b))
    (hp : (t.steep i).phase = .casting) (hm : t.steepMode i ≠ .auto)
    (hbed : ∀ e ∈ t.tables.mp, e.2.owner = .vessel (compNo c) → e.2.role.bed = false) (v : Nat) :
    ((((t.batchOutcome r false).tellEnd r false).postTransfer r.source .aborted v).onTransfer fun u => { u with running := none }) =
      t.castLeft i c m t.timeNow (t.steep i).index (if (t.comp c).index = 255 then 0 else (t.comp c).index) v := by
  have hvessel : vesselOf r.dest.val = some (compNo c) := by
    rw [hdst]
    exact vesselOf_val _
  have hsteep : ∀ u : State, u.clearInteg (steepNo i) = u := fun u => by
    unfold State.clearInteg State.onInteg
    rw [integNo_steepNo]
  let p : State := (t.onSlot m fun y => { y with state := .steeping, steepStart := some t.timeNow }).clearInteg (compNo c)
  have hout : t.batchOutcome r false = p := by
    unfold State.batchOutcome
    rw [hvessel, hsrc, hb, hk]
    dsimp only
    rw [hsteep]
    rfl
  obtain ⟨g, hg⟩ := State.clearInteg_eq (t.onSlot m fun y => { y with state := .steeping, steepStart := some t.timeNow }) (compNo c)
  have hpb : p = (t.onSlot m fun y => { y with state := .steeping, steepStart := some t.timeNow }).onBatch g := hg
  have hst : p.steep i = t.steep i := by rw [hpb]; rfl
  have hcomp : p.comp c = t.comp c := by rw [hpb]; rfl
  have htab : p.tables = t.tables := by rw [hpb]; rfl
  have hmode : p.steepMode i ≠ .auto := by rw [hpb]; exact hm
  let q : State := (p.onSteep i fun y => { y with phase := .castWait }).post .phase .vessel (steepNo i).val 7 (p.steep i).index
  have hback : p.steepCastBack i = q := State.steepCastBack_manual (by rw [hst, hp]; decide) hmode
  have hqcomp : q.comp c = t.comp c := (State.post_comp ..).trans hcomp
  have hqtab : q.tables = t.tables := (State.post_tables ..).trans htab
  have htell : p.tellEnd r false = q.compEmpty c := by
    unfold State.tellEnd
    dsimp only
    rw [if_neg Bool.false_ne_true, hvessel, hsrc]
    unfold State.vesselKeeps State.vesselEmpties
    dsimp only
    rw [vesselIs_steepNo, vesselIs_compNo]
    exact congrArg (State.compEmpty · c) hback
  rw [hout, htell, hsrc, State.compEmpty_eq (by rw [hqtab]; exact hbed), hqcomp]
  unfold State.castLeft
  rw [← hst]
  rfl

/-! ## The abort (R132) -/

/-- The ABORTED entry of a cast (Table 7-3). -/
def Running.abortEntry (r : Running) (i : Fin 4) (c : Fin 6) (cause : AbortCause) : Entry :=
  { number := 0, kind := kABORTED, vessel := i.val, batch := r.batchId, quantity := r.mass, computed := r.expected
    a0 := cause.code, a1 := (compNo c).val }

/-- An aborted cast of less than half its expected mass completes. -/
theorem State.abortDone_cast {s : State} {r : Running} {i : Fin 4} {c : Fin 6} {m : Nat} {b : Batch} {cause : AbortCause}
    (hk : r.kind = .cast) (hcause : r.cause = some cause) (hstops : r.stops.any (·.failed) = false)
    (hsrc : r.source = steepNo i) (hdst : r.dest.val = (compNo c).val) (hhalf : 2 * r.mass < r.expected)
    (hb : s.batchAt (steepNo i) = some (m, b)) (hf : s.excise.storeFault = false) (hn : s.excise.now.next < max32)
    (hrm : s.excise.now.restart = none) (hpl : s.excise.pendingLock = none) (hp : (s.steep i).phase = .casting)
    (hm : s.steepMode i ≠ .auto) (hbed : ∀ e ∈ s.tables.mp, e.2.owner = .vessel (compNo c) → e.2.role.bed = false) :
    let w := (((s.onSlot m fun y => { y with marks := { y.marks with disturbed := true } }).writeEntry
      (r.abortEntry i c cause)).onExcise Excise.release).closeEvent false
    let t := (w.onTransfer fun u => { u with reserved := none }).castLeft i c m s.timeNow (s.steep i).index
      (if (s.comp c).index = 255 then 0 else (s.comp c).index) cause.code
    (s.mgmt.plant = none → s.abortDone r = t.emit .scan) ∧
      ∀ p, s.mgmt.plant = some p → p.cls = 5 → p.code = 3 → s.abortDone r = (t.endLong .plant .ok 0).emit .scan := by
  intro w t
  let z : State := s.onSlot m fun y => { y with marks := { y.marks with disturbed := true } }
  obtain ⟨b', hb'⟩ := State.batchAt_onSlot (f := fun y => { y with marks := { y.marks with disturbed := true } }) hb (fun _ => rfl)
    (fun _ => rfl)
  have hclose : ((z.writeTransferEntry (r.abortEntry i c cause)).releaseEntries).closeEvent false = w :=
    State.closeTransfer_eq (s := z) (r.abortEntry i c cause) hf hn hrm hpl
  obtain ⟨g, hg⟩ := State.closeTransfer_room (s := z) (r.abortEntry i c cause) hf hn
  have hw : w = z.onExcise g := hg
  let x : State := w.onTransfer fun u => { u with reserved := none }
  have hx : x = (z.onExcise g).onTransfer fun u => { u with reserved := none } := by rw [← hw]
  have hst : x.steep i = s.steep i := by rw [hx]; rfl
  have hcomp : x.comp c = s.comp c := by rw [hx]; rfl
  have hnow : x.timeNow = s.timeNow := by rw [hx]; rfl
  have hmg : t.mgmt = s.mgmt := (State.castLeft_keeps x ..).2.1.trans (by rw [hx]; rfl)
  have hleft := State.cast_returns (t := x) hk hsrc hdst (by rw [hx]; exact hb')
    (by rw [hst]; exact hp) (by rw [hx]; exact hm)
    (by rw [hx]; exact hbed) cause.code
  rw [hst, hcomp, hnow, hsrc] at hleft
  have hentry : { r.entry kABORTED r.mass r.expected with a0 := cause.code } = r.abortEntry i c cause := by
    unfold Running.entry
    rw [hsrc, hdst]
    rfl
  have hplaced : decide (r.expected ≤ 2 * r.mass) = false := decide_eq_false (Nat.not_le.2 hhalf)
  unfold State.abortDone
  dsimp only
  rw [hplaced, hcause, hsrc, hb, hstops]
  dsimp only [Option.map_some, Option.getD_some]
  rw [hentry, hclose, if_neg Bool.false_ne_true, hleft]
  refine ⟨fun hno => ?_, fun p hpl h5 h3 => ?_⟩
  · rw [hmg, hno]
  · rw [hmg, hpl]
    exact congrArg (State.emit · .scan) (if_pos ⟨h5, h3⟩)

/-! ## Beside the stops of the running transfer -/

/-- A change of the running transfer beside its source and its state. -/
theorem State.beside_onRun {f : Running → Running} (hsrc : ∀ r, (f r).source = r.source) (hst : ∀ r, (f r).state = r.state) :
    State.Beside (·.onRun f) := by
  constructor <;> intros <;> try rfl
  next s m =>
  unfold State.sourceState State.onRun
  simp only [State.onTransfer_transfer]
  split <;> try rfl
  cases s.transfer.running with
  | none => rfl
  | some r => simp only [Option.map_some, hsrc, hst]

theorem State.clearInteg_onRun (s : State) (f : Running → Running) (v : Fin 12) :
    (s.onRun f).clearInteg v = (s.clearInteg v).onRun f := by
  unfold State.clearInteg State.onInteg
  split <;> rfl

/-- The running record is gone in the end, so that a change of it beside its source and state is gone, too. -/
theorem State.castLeft_onRun {f : Running → Running} (hsrc : ∀ r, (f r).source = r.source) (hst : ∀ r, (f r).state = r.state)
    (t : State) (i : Fin 4) (c : Fin 6) (m now x y v : Nat) : (t.onRun f).castLeft i c m now x y v = t.castLeft i c m now x y v := by
  have hpost := fun (u : State) k cl i n v => ((State.beside_onRun hsrc hst).post u k cl i n v).symm
  have hslot : ∀ (u : State) (g : Batch → Batch), (u.onRun f).onSlot m g = (u.onSlot m g).onRun f := fun u g => rfl
  have hsteep : ∀ (u : State) (g : Steep → Steep), (u.onRun f).onSteep i g = (u.onSteep i g).onRun f := fun u g => rfl
  have hcomp : ∀ (u : State) (g : Comp → Comp), (u.onRun f).onComp c g = (u.onComp c g).onRun f := fun u g => rfl
  have hnone : ∀ u : State, (u.onRun f).onTransfer (fun u => { u with running := none }) =
      u.onTransfer fun u => { u with running := none } := fun u => rfl
  unfold State.castLeft
  rw [hslot, State.clearInteg_onRun, hsteep, hpost, hcomp, hpost, hpost, hnone]

/-- The last entry of a transfer leaves the running record. -/
theorem State.closeTransfer_onRun {s : State} (e : Entry) (hf : s.excise.storeFault = false) (hn : s.excise.now.next < max32)
    (f : Running → Running) : (((s.onRun f).writeEntry e).onExcise Excise.release).closeEvent false =
      (((s.writeEntry e).onExcise Excise.release).closeEvent false).onRun f := by
  rw [State.writeEntry_room (s := s.onRun f) e hf hn, State.writeEntry_room e hf hn]
  rw [State.closeEvent_room, State.closeEvent_room]
  · rfl
  · exact hf
  · exact hf

/-- The report of the last STOP of an aborted cast of less than half its expected mass. -/
theorem State.stopReported_cast {s : State} {r : Running} {o : StopOut} {i : Fin 4} {c : Fin 6} {m : Nat} {b : Batch}
    {cause : AbortCause} (hr : s.transfer.running = some r) (hk : r.kind = .cast) (hst : r.state = .aborted)
    (hcause : r.cause = some cause) (hstops : r.stops = [o]) (ho : o.failed = false)
    (hsrc : r.source = steepNo i) (hdst : r.dest.val = (compNo c).val) (hhalf : 2 * r.mass < r.expected)
    (hb : s.batchAt (steepNo i) = some (m, b)) (hf : s.excise.storeFault = false) (hn : s.excise.now.next < max32)
    (hrm : s.excise.now.restart = none) (hpl : s.excise.pendingLock = none) (hp : (s.steep i).phase = .casting)
    (hm : s.steepMode i ≠ .auto) (hbed : ∀ e ∈ s.tables.mp, e.2.owner = .vessel (compNo c) → e.2.role.bed = false) (x : Int) :
    let w := (((s.onSlot m fun y => { y with marks := { y.marks with disturbed := true } }).writeEntry
      (r.abortEntry i c cause)).onExcise Excise.release).closeEvent false
    let t := (w.onTransfer fun u => { u with reserved := none }).castLeft i c m s.timeNow (s.steep i).index
      (if (s.comp c).index = 255 then 0 else (s.comp c).index) cause.code
    (s.mgmt.plant = none → s.stopReported (.accepted x) o.serial = t.emit .scan) ∧
      ∀ p, s.mgmt.plant = some p → p.cls = 5 → p.code = 3 →
        s.stopReported (.accepted x) o.serial = (t.endLong .plant .ok 0).emit .scan := by
  intro w t
  let f : Running → Running := fun r => { r with stops := r.stops.map fun u =>
    if u.serial = o.serial then { u with settled := true, failed := u.failed || decide (Report.accepted x = .failed) } else u }
  let r' : Running := f r
  have hstop : r'.stops = [{ o with settled := true, failed := false }] := by
    show List.map _ r.stops = _
    rw [hstops, List.map_singleton, if_pos rfl, ho]
    rfl
  have hrun : (s.onRun f).transfer.running = some r' := congrArg (Option.map f) hr
  have hdone : s.stopReported (.accepted x) o.serial = (s.onRun f).abortDone r' := by
    unfold State.stopReported State.abortTest
    rw [show (State.onRun s _).transfer.running = some r' from hrun]
    exact if_pos ⟨hst, by rw [hstop]; rfl⟩
  have hab := State.abortDone_cast (s := s.onRun f) (r := r') hk hcause (by rw [hstop]; rfl) hsrc hdst hhalf hb hf hn hrm hpl hp hm hbed
  have ht : ((((((s.onRun f).onSlot m fun y => { y with marks := { y.marks with disturbed := true } }).writeEntry
      (r'.abortEntry i c cause)).onExcise Excise.release).closeEvent false).onTransfer fun u => { u with reserved := none }).castLeft
        i c m s.timeNow (s.steep i).index (if (s.comp c).index = 255 then 0 else (s.comp c).index) cause.code = t := by
    have hw := State.closeTransfer_onRun (s := s.onSlot m fun y => { y with marks := { y.marks with disturbed := true } })
      (r.abortEntry i c cause) hf hn f
    refine Eq.trans (congrArg (fun u : State => (u.onTransfer fun u => { u with reserved := none }).castLeft i c m s.timeNow
      (s.steep i).index (if (s.comp c).index = 255 then 0 else (s.comp c).index) cause.code) hw) ?_
    exact State.castLeft_onRun (f := f) (fun _ => rfl) (fun _ => rfl) (w.onTransfer fun u => { u with reserved := none }) ..
  rw [hdone]
  exact ⟨fun h => (hab.1 h).trans (congrArg (State.emit · .scan) ht),
    fun p h h5 h3 => (hab.2 p h h5 h3).trans (congrArg (fun u : State => (u.endLong .plant .ok 0).emit .scan) ht)⟩

/-- Settles O33, by the end of a DONE strip and by the report of an aborted cast's last STOP. -/
theorem finishedTransfersLeaveTheirBatch : Obligations.FinishedTransfersLeaveTheirBatch := by
  unfold Obligations.FinishedTransfersLeaveTheirBatch
  constructor
  · intro s r leg k m b hw hr hk hst ho hout hp hsrc hdst hroute hroom hb hf hn hrm hpl hmp hg hgate hq
    rw [← deviation_eq]
    exact stripIsDone s r leg k m b hw hr hk hst ho hout hp hsrc hdst hroute hroom hb hf hn hrm hpl hmp hg hgate hq
  · intro s src tag q x r o i c m b cause hw hph hm hrep hcode hwait hans hr hk hst hcause hstops ho hsrc hdst hhalf hb hf hn hrm hpl
      hphase hmode hbed hq w t
    let d : State := s.dropEntry q.offer.station cSTOP
    have htake : s.takeConfirm src.toNat tag.toNat true = d.emit (.report (.accepted x.arg) .stopAbort o.serial cSTOP) := by
      rw [State.takeConfirm_accepted hm hwait hrep (u := s) (.inl ⟨rfl, .inl (by rw [hcode]; decide)⟩), hans, hcode]
      rfl
    obtain ⟨hfree, hplant⟩ := State.stopReported_cast (s := d) hr hk hst hcause hstops ho hsrc hdst hhalf hb hf hn hrm hpl hphase
      hmode hbed x.arg
    have hdef : t = (w.onTransfer fun u => { u with reserved := none }).castLeft i c m s.timeNow (s.steep i).index
      (if (s.comp c).index = 255 then 0 else (s.comp c).index) cause.code := rfl
    obtain ⟨g, hg⟩ := State.closeTransfer_room (s := d.onSlot m fun y => { y with marks := { y.marks with disturbed := true } })
      (r.abortEntry i c cause) hf hn
    have hwork : t.work = [] := by
      rw [hdef, (State.castLeft_keeps ..).1, show w = _ from hg]
      exact hw
    have hscan : t.noScan = true := by
      rw [hdef]
      refine State.castLeft_noScan (t := w.onTransfer _) i c m _ _ _ _ ?_
      rw [show w = _ from hg]
      exact hq
    have hgives : ∀ u : State, d.stopReported (.accepted x.arg) o.serial = u.emit .scan → u.work = [] → u.noScan = true →
        exec (.confirmTelegram src tag true) s = .next u := fun u hu huw hus =>
      (State.confirmGives (htake ▸ State.settle_emit_then_scan (s := d) hw hu huw hus)).1 hph
    refine ⟨fun hno => hgives t (hfree hno) hwork hscan, fun p hp h5 h3 => hgives _ (hplant p hp h5 h3) ?_ ?_⟩
    · rw [State.endLong_work]
      exact hwork
    · unfold State.noScan
      rw [State.endLong_transfer]
      exact hscan


end Sys2Proof.Machine
end

section
/-! PROOFS. VESSEL SET MODE and VESSEL SET GRANT (R41, R44, R45, R57, R58, R68, R104, R106, R113). -/

namespace Sys2Proof.Machine

-- One declaration after the other: side by side, their stacks are more than the check's bound on memory.
set_option Elab.async false

/-! ## The request (R44) -/

theorem nameAt_mode (m : Mode) : nameAt Mode.all (BitVec.ofNat 8 m.code).toNat = some m := by cases m <;> rfl

theorem vesselOf_byte (v : Fin 12) : vesselOf (BitVec.ofNat 8 v.val).toNat = some v := by revert v; decide

theorem State.noScan_congr {s t : State} (h : t.transfer = s.transfer) : t.noScan = s.noScan := by
  unfold State.noScan
  rw [h]

/-- SET MODE for one vessel, once the state checks pass. -/
theorem setMode_done {s t : State} {r : Request} {v : Fin 12} {m : Mode} (h : s.takes .plant r = true)
    (hargs : r.args = [BitVec.ofNat 8 v.val, BitVec.ofNat 8 m.code]) (hok : s.modeOk v m = .ok)
    (ht : (s.received .plant).applyMode v m = t ∨ (s.received .plant).applyMode v m = t.emit .scan) (hw : t.work = [])
    (hn : t.noScan = true) : exec (.vesselSetMode r) s = .next (t.replies r 3 1 .ok) := by
  have hexec : exec (.vesselSetMode r) s = .next (s.requestArrives 3 1 vesselSetMode r).settle := rfl
  have hand : vesselSetMode .plant r (s.received .plant) = ((s.received .plant).applyMode v m).done := by
    unfold vesselSetMode
    rw [hargs]
    dsimp only
    rw [if_neg (fun h => h rfl), vesselOf_byte, nameAt_mode]
    unfold setModeOne
    dsimp only
    rw [show (s.received .plant).modeOk v m = .ok from hok]
  rw [hexec]
  refine congrArg Host.Outcome.next ?_
  rcases ht with ht | ht
  · rw [ht] at hand
    exact State.requestArrives_settles h hand hw
  · rw [ht] at hand
    exact State.requestArrives_scans h hand hw hn

/-- SET MODE to OFF of a vessel that holds a batch or is reserved. -/
theorem setMode_bound {s : State} {r : Request} {v : Fin 12} (h : s.takes .plant r = true)
    (hargs : r.args = [BitVec.ofNat 8 v.val, BitVec.ofNat 8 Mode.off.code])
    (hb : (s.batchAt v).isSome = true ∨ s.transfer.reserved = some v) :
    exec (.vesselSetMode r) s = .next ((s.received .plant).replies r 3 1 .wrongState) := by
  have hexec : exec (.vesselSetMode r) s = .next (s.requestArrives 3 1 vesselSetMode r).settle := rfl
  have hbound : (s.received .plant).boundVessel v = true := by
    unfold State.boundVessel
    rw [Bool.or_eq_true, decide_eq_true_eq]
    exact hb
  rw [hexec]
  refine congrArg Host.Outcome.next (State.requestArrives_says h ?_)
  unfold vesselSetMode
  rw [hargs]
  dsimp only
  rw [if_neg (fun h => h rfl), vesselOf_byte, nameAt_mode]
  unfold setModeOne State.modeOk
  dsimp only
  rw [if_pos rfl, hbound]
  rfl

/-! ## The fault is cleared -/

/-- A vessel's fault code and a compartment's turner-fault count are cleared. -/
def State.faultCleared (s : State) (v : Fin 12) : State :=
  match vesselIs v with
  | .comp c => (s.onVessel v fun x => { x with fault := none }).onComp c fun x => { x with faults := 0 }
  | _ => s.onVessel v fun x => { x with fault := none }

/-- The fault code and at most a count of turner faults change. -/
theorem State.faultCleared_eq (s : State) (v : Fin 12) : ∃ d g,
    s.faultCleared v = (s.onVessel v fun x => { x with fault := none }).onComp d g ∧ ∀ x, ∃ n, g x = { x with faults := n } := by
  unfold State.faultCleared
  split
  · next c _ => exact ⟨c, _, rfl, fun x => ⟨0, rfl⟩⟩
  · exact ⟨0, id, (State.onComp_self rfl).symm, fun x => ⟨x.faults, rfl⟩⟩

theorem State.applyMode_eq (s : State) (v : Fin 12) (m : Mode) :
    s.applyMode v m = if (s.vessel v).mode = m then s.faultCleared v else if m = .off then (s.faultCleared v).modeOff v
      else (s.faultCleared v).modeOn v m := by
  have hc : s.applyMode v m = if (s.vessel v).mode = m then s.faultCleared v else if m = .off then (s.faultCleared v).modeOff v
      else (s.faultCleared v).modeOn v m := by
    unfold State.applyMode State.faultCleared
    cases vesselIs v <;> rfl
  exact hc

/-- What a change of the modes reads of the state. -/
structure State.SameRest (s u : State) : Prop where
  tables : u.tables = s.tables
  intake : u.intake = s.intake
  filter : u.filter = s.filter
  steeps : u.steeps = s.steeps
  kilns : u.kilns = s.kilns
  transfer : u.transfer = s.transfer
  work : u.work = s.work
  mode : ∀ v, (u.vessel v).mode = (s.vessel v).mode
  blind : ∀ v, (u.vessel v).blind = (s.vessel v).blind
  comp : ∀ c, ∃ n, u.comp c = { s.comp c with faults := n }

theorem State.faultCleared_same (s : State) (v : Fin 12) : State.SameRest s (s.faultCleared v) := by
  obtain ⟨d, g, hd, hg⟩ := s.faultCleared_eq v
  rw [hd]
  refine ⟨rfl, rfl, rfl, rfl, rfl, rfl, rfl, fun w => bank_onBank_part (p := VesselRec.mode)
      (f := fun x => { x with fault := none }) (fun _ => rfl) s.vessels v w,
    fun w => bank_onBank_part (p := VesselRec.blind) (f := fun x => { x with fault := none }) (fun _ => rfl) s.vessels v w, fun c => ?_⟩
  show ∃ n, (State.onComp _ d g).comp c = _
  rw [State.onComp_comp]
  split
  · exact hg _
  · exact ⟨(s.comp c).faults, rfl⟩

theorem State.onVessel_self {s : State} {v : Fin 12} {f : VesselRec → VesselRec} (h : f (s.vessel v) = s.vessel v) : s.onVessel v f = s := by
  unfold State.onVessel
  rw [onBank_self h]

/-! ## Into MANUAL, AUTO or HOLD (R41, R45, R57, R68, R113) -/

theorem State.modeTo_keeps (s : State) (v : Fin 12) (m : Mode) : (s.modeTo v m).tables = s.tables ∧
    (s.modeTo v m).transfer = s.transfer ∧ (s.modeTo v m).work = s.work ∧ (s.modeTo v m).filter = s.filter ∧
      (s.modeTo v m).comps = s.comps ∧ (s.modeTo v m).steeps = s.steeps ∧ (s.modeTo v m).kilns = s.kilns ∧
        (s.modeTo v m).intake = s.intake := by
  unfold State.modeTo State.postVessel
  simp [State.post_tables]

theorem State.steepAuto_empty {s : State} {i : Fin 4} (he : (s.steep i).phase = .empty) : s.steepAuto i = s := by
  unfold State.steepAuto
  dsimp only
  rw [he]

theorem State.compAuto_empty {s : State} {c : Fin 6} (he : (s.comp c).phase = .empty) (hd : ∀ c, (s.comp c).demand = none) :
    s.compAuto c = s := by
  unfold State.compAuto
  rw [he]
  exact State.turnerArbiter_of_idle hd

theorem State.kilnAuto_empty {s : State} {k : Fin 2} (he : (s.kiln k).phase = .empty) : s.kilnAuto k = s := by
  unfold State.kilnAuto
  dsimp only
  rw [he]

/-- AUTO of an EMPTY vessel offers nothing where no demand waits. -/
theorem State.enterAuto_empty {s : State} {v : Fin 12} (he : s.phaseEmpty v = true) (hd : ∀ c, (s.comp c).demand = none) :
    s.enterAuto v = s := by
  unfold State.phaseEmpty at he
  unfold State.enterAuto
  cases hv : vesselIs v with
  | steep i =>
    rw [hv] at he
    exact State.steepAuto_empty (of_decide_eq_true he)
  | comp c =>
    rw [hv] at he
    exact State.compAuto_empty (of_decide_eq_true he) hd
  | kiln k =>
    rw [hv] at he
    exact State.kilnAuto_empty (of_decide_eq_true he)

/-- A vessel in MANUAL or HOLD that takes another of the three modes: its notice, and at most a scan. -/
theorem State.modeOn_rested {s u : State} {v : Fin 12} {m : Mode} (hold : (s.vessel v).mode = .manual ∨ (s.vessel v).mode = .hold)
    (hm : (m ≠ .auto ∧ u = s.modeTo v m) ∨ (m = .auto ∧ (s.modeTo v m).enterAuto v = u)) :
    s.modeOn v m = u ∨ s.modeOn v m = u.emit .scan := by
  have hoff : (s.vessel v).mode ≠ .off := fun h => by rcases hold with hold | hold <;> exact nomatch h.symm.trans hold
  have hauto : (s.vessel v).mode ≠ .auto := fun h => by rcases hold with hold | hold <;> exact nomatch h.symm.trans hold
  have hs3 : (if m = .auto then (s.modeTo v m).enterAuto v else s.modeTo v m) = u := by
    rcases hm with ⟨hm, rfl⟩ | ⟨hm, he⟩
    · exact if_neg hm
    · exact (if_pos hm).trans he
  unfold State.modeOn
  dsimp only
  rw [if_neg hoff, if_neg hauto, hs3]
  split
  · exact .inr rfl
  · exact .inl rfl

/-- The watch timer is loaded where there is a watch MP (R41). -/
theorem State.wakeWatch_eq {s : State} {v : Fin 12} {n : Nat} (h : s.tables.vessel.watchOf v = some n) :
    s.wakeWatch v = s.onVessel v fun x => { x with
      watch := if watchMpIn s.tables.mp v = true then (s.tables.vessel.watchOf v).map (· * 10) else x.watch } := by
  unfold State.wakeWatch State.loadWatch
  rw [h]
  split
  · rfl
  · exact (State.onVessel_self (s := s) rfl).symm

theorem State.steepWakes_still {s : State} {v : Fin 12}
    (h : ∀ i, v = steepNo i → s.co2High i = false ∧ (s.steep i).co2Hold = false) : s.steepWakes v = s := by
  unfold State.steepWakes
  split
  · next i hi =>
    obtain ⟨hhigh, hhold⟩ := h i (steepNo_of_vesselIs hi)
    unfold State.co2Refresh
    dsimp only
    rw [hhigh, Bool.and_false, if_pos hhold]
  · rfl
  · rfl

/-- An EMPTY vessel that leaves OFF. -/
theorem State.modeOn_from_off {s : State} {v : Fin 12} {m : Mode} {n : Nat} (hold : (s.vessel v).mode = .off)
    (hw : s.tables.vessel.watchOf v = some n) (he : s.phaseEmpty v = true) (hd : ∀ c, (s.comp c).demand = none)
    (hco : ∀ i, v = steepNo i → s.co2High i = false ∧ (s.steep i).co2Hold = false) :
    let u := (s.onVessel v fun x => { x with
      mode := m
      watch := if watchMpIn s.tables.mp v = true then (s.tables.vessel.watchOf v).map (· * 10) else x.watch }).post .mode .vessel
        v.val m.code (Mode.off.code : Nat)
    s.modeOn v m = u ∨ s.modeOn v m = u.emit .scan := by
  intro u
  let p : State := s.modeTo v m
  obtain ⟨htab, -, -, -, hcomps, hsteeps, hkilns, hintake⟩ := s.modeTo_keeps v m
  have hload : p.wakeWatch v = u := by
    have hbeside := State.beside_onVessel (v := v) (f := fun x : VesselRec => { x with
      watch := if watchMpIn s.tables.mp v = true then (s.tables.vessel.watchOf v).map (· * 10) else x.watch })
        (fun _ => rfl) (fun _ => rfl) (fun _ => rfl)
    rw [State.wakeWatch_eq (s := p) (by rw [htab]; exact hw), show p.tables = s.tables from htab]
    unfold p State.modeTo State.postVessel
    rw [hbeside.post, State.onVessel_onVessel, hold]
  have hut : u.tables = s.tables := State.post_tables ..
  have hui : u.intake = s.intake := State.post_intake ..
  have hus : u.steeps = s.steeps := State.post_steeps ..
  have huc : u.comps = s.comps := State.post_comps ..
  have huk : u.kilns = s.kilns := State.post_kilns ..
  have hwake : u.steepWakes v = u := State.steepWakes_still fun i hi => by
    have h : u.co2High i = s.co2High i := by
      unfold State.co2High State.mpOf State.mpsOf State.live
      rw [hut, hui]
    rw [h]
    unfold State.steep
    rw [hus]
    exact hco i hi
  have hempty : u.phaseEmpty v = true := by
    unfold State.phaseEmpty State.steep State.comp State.kiln at he ⊢
    rw [hus, huc, huk]
    exact he
  have henter : u.enterAuto v = u := State.enterAuto_empty hempty fun c => by
    unfold State.comp
    rw [huc]
    exact hd c
  unfold State.modeOn
  dsimp only
  rw [if_pos hold, if_neg (fun h : (s.vessel v).mode = .auto => nomatch h.symm.trans hold), hload, hwake, henter, ite_self]
  split
  · exact .inr rfl
  · exact .inl rfl

/-- AUTO of a GERMINATING compartment with a stage running offers its air again. -/
theorem State.enterAuto_germinating {s : State} {c : Fin 6} (hp : (s.comp c).phase = .germinating) (hi : (s.comp c).index ≠ 255)
    (hd : ∀ d, ((s.offerAir c).comp d).demand = none) : s.enterAuto (compNo c) = s.offerAir c := by
  unfold State.enterAuto
  rw [vesselIs_compNo]
  dsimp only
  unfold State.compAuto
  rw [hp]
  dsimp only
  rw [if_pos hi]
  exact State.turnerArbiter_of_idle hd

/-! ## Into OFF (R45, R57, R68, R113) -/

/-- OFF, once the sequencer has offered its STOPs, of a vessel that is not BLIND. -/
theorem State.modeOff_eq {s u : State} {v : Fin 12} (hu : s.leaveForOff v = u) (hb : (u.vessel v).blind = false)
    (hk : ∀ k, vesselIs v = .kiln k → (s.kiln k).grant = 0) :
    s.modeOff v = (u.modeTo v .off).onVessel v fun x => { x with watch := none } := by
  have hblind : ((u.modeTo v .off).vessel v).blind = false := by
    unfold State.modeTo State.postVessel State.vessel
    rw [State.post_vessels]
    exact (congrArg VesselRec.blind (State.vessel_onVessel_same ..)).trans hb
  have hstop : (u.modeTo v .off).stopWatch v = (u.modeTo v .off).onVessel v fun x => { x with watch := none } := by
    unfold State.stopWatch State.clearBlind
    rw [State.vessel_onVessel_same]
    exact if_neg (by rw [hblind]; decide)
  unfold State.modeOff
  dsimp only
  rw [hu, hstop]
  split
  · next k hi => exact if_neg (by rw [hk k hi]; decide)
  · rfl
  · rfl

/-- STOP of OVERRIDE origin to a station with room. -/
theorem State.sendTo_stop {s : State} {st : Nat} {o : Option Nat} (ho : o = some st) (h : s.roomFor st cSTOP .override = true)
    (p : Purpose) : s.sendTo .override p o cSTOP = s.queued st cSTOP s.noArg .override p := by
  rw [ho]
  exact State.send_room h (by decide) rfl (by decide)

theorem State.compOff_eq {s : State} {c : Fin 6} {k : CompCfg} (hk : s.compCfg c = some k)
    (hroom : s.roomFor k.fan cSTOP .override = true) :
    s.compOff c = (s.queued k.fan cSTOP s.noArg .override (.vessel (compNo c))).onComp c fun x => { x with
      stageTimer := none, interval := none } := by
  obtain ⟨-, -, -, -, -, -, -, -, hwait⟩ := State.roomFor_iff.1 hroom
  unfold State.compOff
  rw [State.sendTo_stop (by rw [hk]; rfl) hroom]
  exact State.discardWaiting_empty (by exact hwait) _

/-- No valve of the steep is open. -/
theorem State.steepCloseOpen_still {s : State} {i : Fin 4} (hf : (s.steep i).phase ≠ .filling)
    (hd : (s.steep i).phase ≠ .draining) : s.steepCloseOpen i = s := by
  unfold State.steepCloseOpen
  dsimp only
  split
  · rw [if_neg hf, if_neg fun h => hd h.1]
  · rfl

/-- A steep's timers and its CO2 hold are stopped. -/
def State.steepStill (s : State) (i : Fin 4) : State :=
  s.onSteep i fun x => { x with phaseTimer := none, wait := none, co2Hold := false }

theorem State.steepOff_unaerated {s : State} {i : Fin 4} {k : SteepCfg} (hk : s.steepCfg i = some k)
    (hf : (s.steep i).phase ≠ .filling) (hd : (s.steep i).phase ≠ .draining) (ha : k.aerate = none)
    (hroom : s.roomFor k.fan cSTOP .override = true) :
    s.steepOff i = (s.queued k.fan cSTOP s.noArg .override (.vessel (steepNo i))).steepStill i := by
  obtain ⟨-, -, -, -, -, -, -, -, hwait⟩ := State.roomFor_iff.1 hroom
  unfold State.steepOff
  dsimp only
  rw [State.steepCloseOpen_still hf hd, hk]
  dsimp only [Option.bind_some, Option.map_some]
  rw [ha, show s.sendTo .override (.vessel (steepNo i)) none cSTOP = s from rfl, State.sendTo_stop rfl hroom]
  exact State.discardWaiting_empty (by exact hwait) _

theorem State.steepOff_aerated {s : State} {i : Fin 4} {k : SteepCfg} {w : Nat} (hk : s.steepCfg i = some k)
    (hf : (s.steep i).phase ≠ .filling) (hd : (s.steep i).phase ≠ .draining) (ha : k.aerate = some w) (hne : w ≠ k.fan)
    (hair : s.roomFor w cSTOP .override = true) (hroom : s.roomFor k.fan cSTOP .override = true)
    (hlen : s.filter.queue.length < 15) :
    let a := s.queued w cSTOP s.noArg .override (.vessel (steepNo i))
    s.steepOff i = (a.queued k.fan cSTOP a.noArg .override (.vessel (steepNo i))).steepStill i := by
  intro a
  obtain ⟨-, -, -, -, -, -, -, -, hwait⟩ := State.roomFor_iff.1 hroom
  have hfan : a.roomFor k.fan cSTOP .override = true := State.roomFor_queued hroom (.inl hne) hlen ..
  unfold State.steepOff
  dsimp only
  rw [State.steepCloseOpen_still hf hd, State.sendTo_stop (by rw [hk]; exact ha) hair,
    State.sendTo_stop (s := a) (by rw [hk]; rfl) hfan]
  exact State.discardWaiting_empty (by exact hwait) _

theorem State.kilnOff_eq {s : State} {k : Fin 2} {g : KilnCfg} (hk : s.kilnCfg k = some g) (hg : (s.kiln k).grant = 0)
    (hgate : (s.kiln k).gate = false) (hne : g.burner ≠ g.fan) (hburner : s.roomFor g.burner cSTOP .override = true)
    (hfan : s.roomFor g.fan cSTOP .override = true) (hlen : s.filter.queue.length < 15) :
    let b := s.onKiln k fun x => { x with step := none }
    let a := b.queued g.burner cSTOP b.noArg .override (.vessel (kilnNo k))
    s.kilnOff k = a.queued g.fan cSTOP a.noArg .override (.vessel (kilnNo k)) := by
  intro b a
  obtain ⟨-, -, -, -, -, -, -, -, hwait⟩ := State.roomFor_iff.1 hfan
  have hset : s.setGrant k 0 = s := by
    unfold State.setGrant
    dsimp only
    rw [hg, State.onKiln_self (by rw [← hg]), if_neg (Nat.lt_irrefl 0), if_neg fun h => Nat.lt_irrefl 0 h.1]
  have hshut : b.setGate k false = b := by
    unfold State.setGate
    rw [if_pos]
    exact (congrArg Kiln.gate (State.onKiln_kiln_same ..)).trans hgate
  have hfan' : a.roomFor g.fan cSTOP .override = true := State.roomFor_queued (s := b) hfan (.inl hne) hlen ..
  unfold State.kilnOff
  dsimp only
  rw [hset, hshut, State.sendTo_stop (s := b) (by rw [hk]; rfl) hburner, State.sendTo_stop (by rw [hk]; rfl) hfan']
  exact State.discardWaiting_empty (by exact hwait) _

end Sys2Proof.Machine
end

section
/-! PROOFS. VESSEL SET MODE and VESSEL SET GRANT, by the mode that is set (R41, R44, R45, R57, R58, R68, R104, R106, R113). -/

namespace Sys2Proof.Machine

-- One declaration after the other: side by side, their stacks are more than the check's bound on memory.
set_option Elab.async false

/-! ## What is left as it was -/

namespace State.SameRest

variable {s u : State} (h : State.SameRest s u)
include h

theorem phaseEmpty (v : Fin 12) : u.phaseEmpty v = s.phaseEmpty v := by
  unfold State.phaseEmpty State.steep State.kiln
  rw [h.steeps, h.kilns]
  split
  · rfl
  · next c _ =>
    obtain ⟨n, hn⟩ := h.comp c
    rw [hn]
  · rfl

theorem demand (c : Fin 6) : (u.comp c).demand = (s.comp c).demand := by
  obtain ⟨n, hn⟩ := h.comp c
  rw [hn]

theorem roomFor (st code : Nat) (o : Origin) : u.roomFor st code o = s.roomFor st code o := by
  unfold State.roomFor State.modeAllows
  rw [h.tables, h.filter]
  split
  · rw [h.mode]
  · rfl

theorem co2High (i : Fin 4) : u.co2High i = s.co2High i := by
  unfold State.co2High State.mpOf State.mpsOf State.live
  rw [h.tables, h.intake]

end State.SameRest

/-! ## MANUAL, AUTO and HOLD -/

/-- The vessel with its fault cleared, when the request has been taken. -/
def State.clearedBy (s : State) (v : Fin 12) : State := (s.received .plant).faultCleared v

theorem State.clearedBy_same (s : State) (v : Fin 12) : State.SameRest (s.received .plant) (s.clearedBy v) :=
  State.faultCleared_same _ v

/-- A mode other than the one the vessel has, and other than OFF. -/
theorem State.applyMode_on {s : State} {v : Fin 12} {m : Mode} (hm : (s.vessel v).mode ≠ m) (ho : m ≠ .off) :
    (s.received .plant).applyMode v m = (s.clearedBy v).modeOn v m := by
  rw [State.applyMode_eq]
  exact (if_neg hm).trans (if_neg ho)

theorem State.applyMode_off {s : State} {v : Fin 12} (hm : (s.vessel v).mode ≠ .off) :
    (s.received .plant).applyMode v .off = (s.clearedBy v).modeOff v := by
  rw [State.applyMode_eq]
  exact (if_neg hm).trans (if_pos rfl)

theorem State.modeTo_cleared (s : State) (v : Fin 12) (m : Mode) :
    (s.clearedBy v).modeTo v m = ((s.clearedBy v).onVessel v fun x => { x with mode := m }).post .mode .vessel v.val m.code
      ((s.vessel v).mode.code : Nat) := by
  unfold State.modeTo State.postVessel
  rw [(s.clearedBy_same v).mode]
  rfl

theorem State.queued_comp (s : State) (st code : Nat) (a : Int) (o : Origin) (p : Purpose) (c : Fin 6) :
    (s.queued st code a o p).comp c = s.comp c := rfl

theorem State.queued_transfer (s : State) (st code : Nat) (a : Int) (o : Origin) (p : Purpose) :
    (s.queued st code a o p).transfer = s.transfer := rfl

/-- No kiln's burner: the guard leaves the argument. -/
theorem State.burnerGuard_other {s : State} {st : Nat} (h : ∀ i g, s.kilnCfg i = some g → g.burner ≠ st) (code : Nat) (a : Int) :
    s.burnerGuard st code a = a := by
  have hne : ∀ i, (s.kilnCfg i).map (·.burner) ≠ some st := fun i hi => by
    obtain ⟨g, hg, hgs⟩ := Option.map_eq_some_iff.1 hi
    exact h i g hg hgs
  rw [State.burnerGuard_eq, State.capGuard_ne (hne _), State.capGuard_ne (hne _)]

/-- No kiln's peat feed: no gate is in the way. -/
theorem State.peatShut_other {s : State} {st : Nat} (h : ∀ i g, s.kilnCfg i = some g → g.peat ≠ some st) (code : Nat) :
    s.peatShut st code = false := by
  unfold State.peatShut
  rw [Bool.and_eq_false_iff, List.any_eq_false]
  refine .inr fun i _ => ?_
  split
  · next g hg => rw [decide_eq_false (h i g hg), Bool.false_and]; decide
  · decide

section

variable {s : State} {r : Request} {v : Fin 12} {m : Mode} (htk : s.takes .plant r = true)
  (hargs : r.args = [BitVec.ofNat 8 v.val, BitVec.ofNat 8 m.code]) (hentry : s.hasEntry v = true) (hscan : s.noScan = true)
include htk hargs hentry hscan

/-- A mode other than OFF, by what it makes of the cleared vessel. -/
theorem setMode_on {t : State} (ho : m ≠ .off)
    (ht : (s.received .plant).applyMode v m = t ∨ (s.received .plant).applyMode v m = t.emit .scan)
    (hw : t.work = s.work) (hr : t.transfer = s.transfer) : exec (.vesselSetMode r) s = .next (t.replies r 3 1 .ok) := by
  refine setMode_done htk hargs ?_ ht (hw.trans ?_) ((State.noScan_congr hr).trans hscan)
  · unfold State.modeOk
    rw [if_neg ho, hentry]
    rfl
  · exact (State.takes_iff.1 htk).1

theorem setMode_same (ho : m ≠ .off) (hm : (s.vessel v).mode = m) :
    exec (.vesselSetMode r) s = .next ((s.clearedBy v).replies r 3 1 .ok) :=
  setMode_on htk hargs hentry hscan ho (.inl (by rw [State.applyMode_eq]; exact if_pos hm)) (s.clearedBy_same v).work
    (s.clearedBy_same v).transfer

theorem setMode_rested (hm : (m = .manual ∧ (s.vessel v).mode = .hold) ∨ (m = .hold ∧ (s.vessel v).mode = .manual) ∨
    (m = .auto ∧ ((s.vessel v).mode = .manual ∨ (s.vessel v).mode = .hold) ∧ s.phaseEmpty v = true ∧
      ∀ c, (s.comp c).demand = none)) :
    exec (.vesselSetMode r) s = .next ((((s.clearedBy v).onVessel v fun x => { x with mode := m }).post .mode .vessel v.val m.code
      ((s.vessel v).mode.code : Nat)).replies r 3 1 .ok) := by
  have hsame := s.clearedBy_same v
  obtain ⟨-, htr, hwk, -, hcomps, hsteeps, hkilns, -⟩ := (s.clearedBy v).modeTo_keeps v m
  have hold : ((s.clearedBy v).vessel v).mode = .manual ∨ ((s.clearedBy v).vessel v).mode = .hold := by
    rw [hsame.mode]
    rcases hm with ⟨-, h⟩ | ⟨-, h⟩ | ⟨-, h, -⟩
    · exact .inr h
    · exact .inl h
    · exact h
  have hne : (s.vessel v).mode ≠ m ∧ m ≠ .off := by
    rcases hm with ⟨rfl, h⟩ | ⟨rfl, h⟩ | ⟨rfl, h | h, -⟩ <;> rw [h] <;> decide
  rw [← State.modeTo_cleared]
  refine setMode_on htk hargs hentry hscan hne.2 ?_ (hwk.trans hsame.work) (htr.trans hsame.transfer)
  rw [State.applyMode_on hne.1 hne.2]
  refine State.modeOn_rested hold ?_
  rcases hm with ⟨rfl, -⟩ | ⟨rfl, -⟩ | ⟨rfl, -, he, hd⟩
  · exact .inl ⟨by decide, rfl⟩
  · exact .inl ⟨by decide, rfl⟩
  · refine .inr ⟨rfl, State.enterAuto_empty ?_ fun c => ?_⟩
    · have hempty : ((s.clearedBy v).modeTo v .auto).phaseEmpty v = (s.clearedBy v).phaseEmpty v := by
        unfold State.phaseEmpty State.steep State.comp State.kiln
        rw [hsteeps, hcomps, hkilns]
      rw [hempty, hsame.phaseEmpty]
      exact he
    · unfold State.comp
      rw [hcomps]
      exact (hsame.demand c).trans (hd c)

theorem setMode_wakes (ho : m ≠ .off) (hold : (s.vessel v).mode = .off) (he : s.phaseEmpty v = true)
    (hd : ∀ c, (s.comp c).demand = none) (hco : ∀ i, v = steepNo i → s.co2High i = false ∧ (s.steep i).co2Hold = false) :
    exec (.vesselSetMode r) s = .next ((((s.clearedBy v).onVessel v fun x => { x with
      mode := m
      watch := if watchMpIn s.tables.mp v = true then (s.tables.vessel.watchOf v).map (· * 10) else x.watch }).post .mode
        .vessel v.val m.code ((s.vessel v).mode.code : Nat)).replies r 3 1 .ok) := by
  have hsame := s.clearedBy_same v
  obtain ⟨n, hn⟩ := Option.isSome_iff_exists.1 hentry
  have hon := State.modeOn_from_off (s := s.clearedBy v) (m := m) (n := n) ((hsame.mode v).trans hold) (by rw [hsame.tables]; exact hn)
    ((hsame.phaseEmpty v).trans he) (fun c => (hsame.demand c).trans (hd c)) fun i hi => by
      rw [hsame.co2High]
      unfold State.steep
      rw [hsame.steeps]
      exact hco i hi
  rw [hsame.tables] at hon
  rw [hold]
  refine setMode_on htk hargs hentry hscan ho ?_ ((State.post_work ..).trans hsame.work) ((State.post_transfer ..).trans hsame.transfer)
  rw [State.applyMode_on (fun h => ho (h.symm.trans hold)) ho]
  exact hon

theorem setMode_air {c : Fin 6} {k : CompCfg} {f : GermStage} (hv : v = compNo c) (hm : m = .auto)
    (hold : (s.vessel v).mode = .manual ∨ (s.vessel v).mode = .hold) (hp : (s.comp c).phase = .germinating)
    (hi : (s.comp c).index ≠ 255) (hf : (s.comp c).fields = some f) (hk : s.compCfg c = some k)
    (hd : ∀ d, (s.comp d).demand = none) (hne : k.air ≠ k.fan) (hlen : s.filter.queue.length < 14)
    (hown : ∀ i g, s.kilnCfg i = some g → g.burner ≠ k.air ∧ g.burner ≠ k.fan ∧ g.peat ≠ some k.fan)
    (hair : ((s.clearedBy v).onVessel v fun x => { x with mode := .auto }).roomFor k.air cSETPOINT .sequencer = true)
    (hrun : ((s.clearedBy v).onVessel v fun x => { x with mode := .auto }).roomFor k.fan cRUN .sequencer = true)
    (hset : ((s.clearedBy v).onVessel v fun x => { x with mode := .auto }).roomFor k.fan cSETPOINT .sequencer = true) :
    let a := (((s.clearedBy v).onVessel v fun x => { x with mode := .auto }).post .mode .vessel v.val m.code
      ((s.vessel v).mode.code : Nat)).queued k.air cSETPOINT f.air .sequencer (.vessel v)
    exec (.vesselSetMode r) s = .next (((a.queued k.fan cRUN a.noArg .sequencer (.vessel v)).queued k.fan cSETPOINT f.fan .sequencer
      (.vessel v)).replies r 3 1 .ok) := by
  subst hv hm
  intro a
  have hsame := s.clearedBy_same (compNo c)
  obtain ⟨htab, htr, hwk, hfil, hcomps, -, hkilns, -⟩ := (s.clearedBy (compNo c)).modeTo_keeps (compNo c) .auto
  let p : State := (s.clearedBy (compNo c)).modeTo (compNo c) .auto
  have hpa : p = ((s.clearedBy (compNo c)).onVessel (compNo c) fun x => { x with mode := .auto }).post .mode .vessel (compNo c).val
      Mode.auto.code ((s.vessel (compNo c)).mode.code : Nat) := State.modeTo_cleared ..
  obtain ⟨n, hn⟩ := hsame.comp c
  have hpc : p.comp c = { s.comp c with faults := n } := by
    unfold State.comp
    rw [show p.comps = _ from hcomps]
    exact hn
  have htabs : p.tables = s.tables := htab.trans hsame.tables
  have hroom : ∀ st code, p.roomFor st code .sequencer = ((s.clearedBy (compNo c)).onVessel (compNo c) fun x => { x with
      mode := .auto }).roomFor st code .sequencer := fun st code => by
    rw [hpa]
    exact State.roomFor_post ..
  have hkil : p.kilns = s.kilns := hkilns.trans hsame.kilns
  have hcfg : ∀ i, p.kilnCfg i = s.kilnCfg i := fun i => congrArg (fun u : Tables => u.vessel.kilns.get i.val) htabs
  have hburner : ∀ st, (∀ i g, s.kilnCfg i = some g → g.burner ≠ st) → ∀ x, p.burnerGuard st cSETPOINT x = x := fun st h x =>
    State.burnerGuard_other (fun i g hg => h i g ((hcfg i).symm.trans hg)) _ x
  have hshut : p.peatShut k.fan cRUN = false := State.peatShut_other (fun i g hg => (hown i g ((hcfg i).symm.trans hg)).2.2) cRUN
  have hoff := State.offerAir_eq (s := p) (c := c) (f := f) (k := k) (by rw [hpc]; exact hf)
    ((congrArg (fun u : Tables => u.vessel.comps.get c.val) htabs).trans hk) hne
    (by rw [show p.filter = s.filter from hfil.trans hsame.filter]; exact hlen)
    (by rw [hroom]; exact hair) (by rw [hroom]; exact hrun) (by rw [hroom]; exact hset)
    (hburner _ (fun i g hg => (hown i g hg).1) _) (hburner _ (fun i g hg => (hown i g hg).2.1) _) hshut
  have hpd : ∀ d, (p.comp d).demand = none := fun d => by
    unfold State.comp
    rw [show p.comps = _ from hcomps]
    exact (hsame.demand d).trans (hd d)
  have hdem : ∀ d, ((p.offerAir c).comp d).demand = none := fun d => by
    rw [hoff, State.queued_comp, State.queued_comp, State.queued_comp]
    exact hpd d
  have hon := State.modeOn_rested (s := s.clearedBy (compNo c)) (m := .auto) (v := compNo c) (by rw [hsame.mode]; exact hold)
    (.inr ⟨rfl, State.enterAuto_germinating (s := p) (by rw [hpc]; exact hp) (by rw [hpc]; exact hi) hdem⟩)
  have hne' : (s.vessel (compNo c)).mode ≠ .auto := by rcases hold with h | h <;> rw [h] <;> decide
  rw [hoff, hpa] at hon
  refine setMode_on htk hargs hentry hscan (by decide) ((State.applyMode_on hne' (by decide)) ▸ hon) ?_ ?_
  · rw [State.queued_work, State.queued_work, State.queued_work, State.post_work]
    exact hsame.work
  · rw [State.queued_transfer, State.queued_transfer, State.queued_transfer, State.post_transfer]
    exact hsame.transfer

end

/-! ## OFF -/

/-- The vessels' records, the events under way and the transfer unit are the same. -/
structure State.SameModes (s u : State) : Prop where
  vessels : u.vessels = s.vessels
  work : u.work = s.work
  transfer : u.transfer = s.transfer

namespace State.SameModes

theorem refl (s : State) : State.SameModes s s := ⟨rfl, rfl, rfl⟩

variable {s u : State} (h : State.SameModes s u)
include h

theorem queued (st code : Nat) (a : Int) (o : Origin) (p : Purpose) : State.SameModes s (u.queued st code a o p) :=
  ⟨h.vessels, h.work, h.transfer⟩
theorem onComp (c : Fin 6) (f : Comp → Comp) : State.SameModes s (u.onComp c f) := ⟨h.vessels, h.work, h.transfer⟩
theorem onSteep (i : Fin 4) (f : Steep → Steep) : State.SameModes s (u.onSteep i f) := ⟨h.vessels, h.work, h.transfer⟩
theorem onKiln (k : Fin 2) (f : Kiln → Kiln) : State.SameModes s (u.onKiln k f) := ⟨h.vessels, h.work, h.transfer⟩

end State.SameModes

section

variable {s : State} {r : Request} {v : Fin 12} (htk : s.takes .plant r = true)
  (hargs : r.args = [BitVec.ofNat 8 v.val, BitVec.ofNat 8 Mode.off.code]) (hscan : s.noScan = true)
  (hold : (s.vessel v).mode ≠ .off) (hb : s.batchAt v = none) (hres : s.transfer.reserved ≠ some v)
  (hblind : (s.vessel v).blind = false)
include htk hargs hscan hold hb hres hblind

/-- OFF, by what the sequencer has made of the cleared vessel u. -/
theorem setMode_off {u : State} (hu : (s.clearedBy v).leaveForOff v = u) (hs : State.SameModes (s.clearedBy v) u)
    (hk : ∀ k, vesselIs v = .kiln k → (s.kiln k).grant = 0) :
    exec (.vesselSetMode r) s = .next ((((u.onVessel v fun x => { x with mode := .off }).post .mode .vessel v.val Mode.off.code
      ((s.vessel v).mode.code : Nat)).onVessel v fun x => { x with watch := none }).replies r 3 1 .ok) := by
  have hsame := s.clearedBy_same v
  obtain ⟨hv, hw, htr⟩ := hs
  have hmode : (u.vessel v).mode = (s.vessel v).mode := by
    unfold State.vessel
    rw [hv]
    exact hsame.mode v
  have hseen : (u.vessel v).blind = false := by
    unfold State.vessel
    rw [hv]
    exact (hsame.blind v).trans hblind
  have hoff := State.modeOff_eq hu hseen fun k hi => by
    unfold State.kiln
    rw [hsame.kilns]
    exact hk k hi
  unfold State.modeTo State.postVessel at hoff
  rw [hmode] at hoff
  have hunbound : s.boundVessel v = false := by
    unfold State.boundVessel
    rw [hb, decide_eq_false hres]
    rfl
  refine setMode_done htk hargs ?_ (.inl ((State.applyMode_off hold).trans hoff)) ?_ ?_
  · unfold State.modeOk
    rw [if_pos rfl, hunbound]
    rfl
  · rw [State.onVessel_work, State.post_work]
    exact (hw.trans hsame.work).trans (State.takes_iff.1 htk).1
  · refine (State.noScan_congr (s := s) ?_).trans hscan
    rw [State.onVessel_transfer, State.post_transfer]
    exact htr.trans hsame.transfer

theorem setMode_off_comp {c : Fin 6} {k : CompCfg} (hv : v = compNo c) (hk : s.compCfg c = some k)
    (hroom : s.roomFor k.fan cSTOP .override = true) :
    let u := ((s.clearedBy v).queued k.fan cSTOP (s.clearedBy v).noArg .override (.vessel v)).onComp c fun x => { x with
      stageTimer := none, interval := none }
    exec (.vesselSetMode r) s = .next ((((u.onVessel v fun x => { x with mode := .off }).post .mode .vessel v.val Mode.off.code
      ((s.vessel v).mode.code : Nat)).onVessel v fun x => { x with watch := none }).replies r 3 1 .ok) := by
  subst hv
  intro u
  have hsame := s.clearedBy_same (compNo c)
  refine setMode_off (u := u) htk hargs hscan hold hb hres hblind ?_ (.onComp (.queued (.refl _) ..) ..) fun k hi => ?_
  · unfold State.leaveForOff
    rw [vesselIs_compNo]
    exact State.compOff_eq ((congrArg (fun u : Tables => u.vessel.comps.get c.val) hsame.tables).trans hk)
      ((hsame.roomFor ..).trans hroom)
  · exact nomatch hi.symm.trans (vesselIs_compNo c)

theorem setMode_off_steep {i : Fin 4} {k : SteepCfg} (hv : v = steepNo i) (hk : s.steepCfg i = some k)
    (hf : (s.steep i).phase ≠ .filling) (hd : (s.steep i).phase ≠ .draining) (hroom : s.roomFor k.fan cSTOP .override = true) :
    let leaves (u : State) : Prop := exec (.vesselSetMode r) s = .next ((((u.onVessel v fun x => { x with mode := .off }).post .mode
      .vessel v.val Mode.off.code ((s.vessel v).mode.code : Nat)).onVessel v fun x => { x with watch := none }).replies r 3 1 .ok)
    let stop (u : State) (st : Nat) : State := u.queued st cSTOP u.noArg .override (.vessel v)
    (k.aerate = none → leaves ((stop (s.clearedBy v) k.fan).steepStill i)) ∧
      ∀ w, k.aerate = some w → w ≠ k.fan → s.roomFor w cSTOP .override = true → s.filter.queue.length < 15 →
        leaves ((stop (stop (s.clearedBy v) w) k.fan).steepStill i) := by
  subst hv
  intro leaves stop
  have hsame := s.clearedBy_same (steepNo i)
  have hsteep : (s.clearedBy (steepNo i)).steep i = s.steep i := by
    unfold State.steep
    rw [hsame.steeps]
    rfl
  have hcfg : (s.clearedBy (steepNo i)).steepCfg i = some k :=
    (congrArg (fun u : Tables => u.vessel.steeps.get i.val) hsame.tables).trans hk
  have hnot : ∀ k, vesselIs (steepNo i) = .kiln k → (s.kiln k).grant = 0 := fun k hi =>
    nomatch hi.symm.trans (vesselIs_steepNo i)
  have hleave : (s.clearedBy (steepNo i)).leaveForOff (steepNo i) = (s.clearedBy (steepNo i)).steepOff i := by
    unfold State.leaveForOff
    rw [vesselIs_steepNo]
  refine ⟨fun ha => ?_, fun w ha hne hair hlen => ?_⟩
  · refine setMode_off (u := (stop (s.clearedBy (steepNo i)) k.fan).steepStill i) htk hargs hscan hold hb hres hblind
      (hleave.trans ?_) (.onSteep (.queued (.refl _) ..) ..) hnot
    exact State.steepOff_unaerated hcfg (by rw [hsteep]; exact hf) (by rw [hsteep]; exact hd) ha ((hsame.roomFor ..).trans hroom)
  · refine setMode_off (u := (stop (stop (s.clearedBy (steepNo i)) w) k.fan).steepStill i) htk hargs hscan hold hb hres hblind
      (hleave.trans ?_) (.onSteep (.queued (.queued (.refl _) ..) ..) ..) hnot
    exact State.steepOff_aerated hcfg (by rw [hsteep]; exact hf) (by rw [hsteep]; exact hd) ha hne ((hsame.roomFor ..).trans hair)
      ((hsame.roomFor ..).trans hroom) (by rw [hsame.filter]; exact hlen)

theorem setMode_off_kiln {i : Fin 2} {k : KilnCfg} (hv : v = kilnNo i) (hk : s.kilnCfg i = some k) (hg : (s.kiln i).grant = 0)
    (hgate : (s.kiln i).gate = false) (hne : k.burner ≠ k.fan) (hburner : s.roomFor k.burner cSTOP .override = true)
    (hfan : s.roomFor k.fan cSTOP .override = true) (hlen : s.filter.queue.length < 15) :
    let stop (u : State) (st : Nat) : State := u.queued st cSTOP u.noArg .override (.vessel v)
    let u := (stop (stop (s.clearedBy v) k.burner) k.fan).onKiln i fun x => { x with step := none }
    exec (.vesselSetMode r) s = .next ((((u.onVessel v fun x => { x with mode := .off }).post .mode .vessel v.val Mode.off.code
      ((s.vessel v).mode.code : Nat)).onVessel v fun x => { x with watch := none }).replies r 3 1 .ok) := by
  subst hv
  intro stop u
  have hsame := s.clearedBy_same (kilnNo i)
  have hkiln : (s.clearedBy (kilnNo i)).kiln i = s.kiln i := by
    unfold State.kiln
    rw [hsame.kilns]
    rfl
  have hleave : (s.clearedBy (kilnNo i)).leaveForOff (kilnNo i) = (s.clearedBy (kilnNo i)).kilnOff i := by
    unfold State.leaveForOff
    rw [vesselIs_kilnNo]
  have hoff := State.kilnOff_eq (s := s.clearedBy (kilnNo i))
    ((congrArg (fun u : Tables => u.vessel.kilns.get i.val) hsame.tables).trans hk) (by rw [hkiln]; exact hg)
    (by rw [hkiln]; exact hgate) hne ((hsame.roomFor ..).trans hburner) ((hsame.roomFor ..).trans hfan)
    (by rw [hsame.filter]; exact hlen)
  refine setMode_off (u := u) htk hargs hscan hold hb hres hblind (hleave.trans (hoff.trans ?_)) (.onKiln (.queued (.queued (.refl _) ..) ..) ..)
    fun j hi => ?_
  · show _ = State.onKiln (State.queued ..) i _
    rw [State.queued_onKiln]
    exact congrArg (State.queued · k.fan cSTOP _ .override (.vessel (kilnNo i))) (State.queued_onKiln ..).symm
  · obtain rfl : i = j := by simpa [vesselIs_kilnNo] using hi
    exact hg

end

/-! ## VESSEL SET GRANT (R104, R106) -/

theorem kilnOf_byte (k : Fin 2) : kilnOf (BitVec.ofNat 8 (kilnNo k).val).toNat = some k := by revert k; decide

section

variable {s : State} {k : Fin 2} {g : Nat}

/-- A larger grant of a kiln that is not CLEAR leaves its cap. -/
theorem State.changeGrant_up (hg : (s.kiln k).grant < g) (ht : (s.kiln k).thermal ≠ .clear) :
    s.changeGrant k g = s.onKiln k fun x => { x with grant := g } := by
  have hset : s.setGrant k g = s.onKiln k fun x => { x with grant := g } := by
    unfold State.setGrant
    dsimp only
    rw [if_neg (Nat.lt_asymm hg), if_neg fun h => ht h.2.1]
  unfold State.changeGrant
  dsimp only
  rw [hset, if_neg (Nat.lt_asymm hg)]

/-- A smaller grant above the cap leaves the cap, where the step timer stays and the other kiln does not re-evaluate. -/
theorem State.changeGrant_down (hg : g < (s.kiln k).grant) (hc : (s.kiln k).cap ≤ g)
    (hs : (s.kiln k).step = none ∨ (s.kiln k).thermal = .hot) (hr : s.regrants (other k) = false) :
    s.changeGrant k g = s.onKiln k fun x => { x with grant := g } := by
  let a : State := s.onKiln k fun x => { x with grant := g }
  have hkiln : a.kiln k = { s.kiln k with grant := g } := State.onKiln_kiln_same ..
  have hrest : a.restCap k = a := by
    unfold State.restCap
    dsimp only
    split
    · next h =>
      refine State.onKiln_self ?_
      rw [hkiln] at h ⊢
      rcases hs with hs | hs
      · rw [← hs]
      · exact absurd hs h.2
    · rfl
  have hset : s.setGrant k g = a := by
    unfold State.setGrant State.setCap
    dsimp only
    rw [if_pos hg, Nat.min_eq_left hc, if_pos (congrArg Kiln.cap hkiln)]
    exact hrest
  have hreg : a.regrants (other k) = false := by
    unfold State.regrants at hr ⊢
    rw [State.kiln_onKiln_ne _ (other_ne k)]
    exact hr
  unfold State.changeGrant
  dsimp only
  rw [hset, if_pos hg]
  unfold State.regrant
  rw [hreg]
  rfl

/-- A kiln out of AUTO does not re-evaluate. -/
theorem State.regrants_not_auto (h : s.kilnMode k ≠ .auto) : s.regrants k = false := by
  unfold State.regrants
  rw [decide_eq_false h]
  rfl

variable {r : Request} (htk : s.takes .plant r = true) (hg8 : g ≤ 8)
  (hargs : r.args = [BitVec.ofNat 8 (kilnNo k).val, BitVec.ofNat 8 g]) (hm : s.kilnMode k = .manual)
  (hp : (s.kiln k).phase = .waitHeat ∨ (s.kiln k).phase = .firing) (hi : (s.kiln k).index ≠ 255)
include hg8 hargs hm hp hi

/-- SET GRANT of a kiln in MANUAL with a stage: the budget decides. -/
theorem vesselSetGrant_eq : vesselSetGrant .plant r (s.received .plant) =
    if s.budget - (s.kiln (other k)).grant < g then (s.received .plant).says .noRoom
    else ((s.received .plant).changeGrant k g).done := by
  have hbyte : (BitVec.ofNat 8 g).toNat = g := Nat.mod_eq_of_lt (by omega)
  unfold vesselSetGrant
  rw [hargs]
  dsimp only
  rw [if_neg (fun h => h rfl), kilnOf_byte]
  dsimp only
  rw [hbyte, if_neg (by omega), if_neg, if_neg]
  · rfl
  · exact hi
  · rintro (h | ⟨hw, hf⟩)
    · exact h hm
    · exact hp.elim hw hf

include htk

theorem setGrant_refused (hb : s.budget - (s.kiln (other k)).grant < g) :
    exec (.vesselSetGrant r) s = .next ((s.received .plant).replies r 3 2 .noRoom) := by
  have hexec : exec (.vesselSetGrant r) s = .next (s.requestArrives 3 2 vesselSetGrant r).settle := rfl
  rw [hexec]
  refine congrArg Host.Outcome.next (State.requestArrives_says htk ?_)
  rw [vesselSetGrant_eq hg8 hargs hm hp hi, if_pos hb]

theorem setGrant_granted (hb : g ≤ s.budget - (s.kiln (other k)).grant)
    (hc : (s.received .plant).changeGrant k g = (s.received .plant).onKiln k fun x => { x with grant := g }) :
    exec (.vesselSetGrant r) s = .next (((s.received .plant).onKiln k fun x => { x with grant := g }).replies r 3 2 .ok) := by
  have hexec : exec (.vesselSetGrant r) s = .next (s.requestArrives 3 2 vesselSetGrant r).settle := rfl
  rw [hexec]
  refine congrArg Host.Outcome.next (State.requestArrives_settles htk (a := { status := .ok }) ?_ (State.takes_iff.1 htk).1)
  rw [vesselSetGrant_eq hg8 hargs hm hp hi, if_neg (Nat.not_lt.2 hb), hc]
  rfl

end

/-- Settles O51, SET MODE by the mode that is set and SET GRANT by the budget. -/
theorem vesselRequestsSetModeAndGrant : Obligations.VesselRequestsSetModeAndGrant := by
  unfold Obligations.VesselRequestsSetModeAndGrant
  constructor
  · intro s r v m htk hargs hentry hscan cleared old done noted
    have hcleared : cleared = s.clearedBy v := by
      unfold State.clearedBy State.faultCleared
      cases hvi : vesselIs v <;> simp only [cleared, hvi]
    clear_value cleared
    subst hcleared
    refine ⟨?_, ?_, ?_, ?_, ?_, ?_⟩
    · exact setMode_rested htk hargs hentry hscan
    · exact setMode_wakes htk hargs hentry hscan
    · intro c k f hv hm hold hp hi hf hk hd hne hlen hown u hair hrun hset
      exact setMode_air htk hargs hentry hscan hv hm hold hp hi hf hk hd hne hlen hown hair hrun hset
    · intro hm hold hb hres hblind off stop
      subst hm
      refine ⟨?_, ?_, ?_⟩
      · exact fun c k hv hk hroom => setMode_off_comp htk hargs hscan hold hb hres hblind hv hk hroom
      · intro i k hv hk hf hd hroom still
        exact setMode_off_steep htk hargs hscan hold hb hres hblind hv hk hf hd hroom
      · exact fun i k hv hk hg hgate hne hburner hfan hlen =>
          setMode_off_kiln htk hargs hscan hold hb hres hblind hv hk hg hgate hne hburner hfan hlen
    · exact setMode_same htk hargs hentry hscan
    · intro hm hb
      subst hm
      exact setMode_bound htk hargs hb
  · intro s r k g htk hg8 hargs hm hp hi
    exact ⟨setGrant_refused htk hg8 hargs hm hp hi,
      fun hb hg ht => setGrant_granted htk hg8 hargs hm hp hi hb (State.changeGrant_up (s := s.received .plant) hg ht),
      fun hb hg hc hs ho => setGrant_granted htk hg8 hargs hm hp hi hb
        (State.changeGrant_down (s := s.received .plant) hg hc (.inl hs) (State.regrants_not_auto (s := s.received .plant) ho))⟩


end Sys2Proof.Machine
end

section
/-! PROOFS. What grants, gates and stages make of a kiln's record (R93, R102, R103, R106, R111). -/

namespace Sys2Proof.Machine

-- One declaration after the other: side by side, their stacks are more than the check's bound on memory.
set_option Elab.async false

/-! ## The thermal override leaves a kiln's stage -/

/-- The kilns but for their thermal conditions, caps and step timers. -/
def State.SameKilns (s t : State) : Prop := ∀ k, (s.kiln k).SameStage (t.kiln k)

namespace State.SameKilns

variable {a s t : State}

theorem refl (s : State) : s.SameKilns s := fun _ => rfl

theorem of_kilns (h : a.SameKilns s) (hk : t.kilns = s.kilns) : a.SameKilns t := fun k => by
  have hkiln : t.kiln k = s.kiln k := by unfold State.kiln; rw [hk]
  rw [hkiln]
  exact h k

theorem onHeat (h : a.SameKilns s) {k : Fin 2} {f : Kiln → Kiln} (hf : ∀ x : Kiln, x.SameStage (f x)) :
    a.SameKilns (s.onKiln k f) := fun j => by
  rw [State.kiln_onKiln]
  split
  · unfold Kiln.SameStage at *
    rw [hf (s.kiln j), h j]
  · exact h j

theorem selfKept (a : State) : State.SelfKept a.SameKilns where
  offers h hs := h.of_kilns hs.kilns
  onSteep h := h.of_kilns rfl
  onTurner h := h.of_kilns rfl
  onKiln hf h := h.onHeat hf
  onDemand h := h.of_kilns rfl

end State.SameKilns

/-! ## The grant, the cap and the gate -/

/-- A kiln with another grant, and the cap and step timer that this brings. -/
def Kiln.Granted (x : Kiln) (g : Nat) (y : Kiln) : Prop := y = { x with grant := g, cap := y.cap, step := y.step }

theorem State.setGrant_granted (s : State) (k : Fin 2) (g : Nat) : (s.kiln k).Granted g ((s.setGrant k g).kiln k) := by
  unfold Kiln.Granted State.setGrant
  dsimp only
  split_ifs
  · rw [State.setCap_kiln_same, State.kiln_onKiln_same]
  · rw [State.setCap_kiln_same, State.kiln_onKiln_same]
  · rw [State.kiln_onKiln_same]

/-- A falling grant brings the cap within it. -/
theorem State.setGrant_cap_down {s : State} {k : Fin 2} {g : Nat} (h : g < (s.kiln k).grant) :
    ((s.setGrant k g).kiln k).cap = min (s.kiln k).cap g := by
  unfold State.setGrant
  dsimp only
  rw [if_pos h, State.setCap_kiln_same]

theorem State.setGate_kiln (s : State) (k j : Fin 2) (b : Bool) :
    (s.setGate k b).kiln j = if j = k then { s.kiln j with gate := b } else s.kiln j := by
  have hoffer : ∀ (o : Origin) (p : Purpose) (st : Option Nat) (code : Nat), ((s.onKiln k fun y => { y with gate := b }).sendTo o p
      st code).kiln j = (s.onKiln k fun y => { y with gate := b }).kiln j := fun _ _ _ _ =>
    (State.SameButOffers.refl _).sendTo.kiln j
  by_cases hg : (s.kiln k).gate = b
  · have hsame : s.setGate k b = s := if_pos hg
    rw [hsame]
    split
    · next hj => rw [hj, ← hg]
    · rfl
  · refine Eq.trans ?_ (State.kiln_onKiln s k j fun y => { y with gate := b })
    unfold State.setGate
    rw [if_neg hg]
    dsimp only
    split_ifs
    · exact hoffer ..
    · rfl
    · exact hoffer ..
    · rfl

theorem State.evalGate_kiln (s : State) (k : Fin 2) :
    (s.evalGate k).kiln k = { s.kiln k with gate := s.gateWanted k } := (s.setGate_kiln k k _).trans (if_pos rfl)

theorem State.evalGate_kiln_ne (s : State) {k j : Fin 2} (h : j ≠ k) : (s.evalGate k).kiln j = s.kiln j :=
  (s.setGate_kiln k j _).trans (if_neg h)

/-- The gate is to be open in FIRING where the stage permits peat and M is at its floor or above (R111). -/
theorem State.gateWanted_iff {s : State} {k : Fin 2} {f : KilnStage} (hf : (s.kiln k).fields = some f) :
    s.gateWanted k = true ↔ (s.kiln k).phase = .firing ∧ f.peat = true ∧
      ∃ w, s.moistureAt (kilnNo k) = some w ∧ f.peatFloor ≤ w := by
  unfold State.gateWanted
  rw [hf]
  split
  · next hm h =>
    obtain rfl := Option.some.inj hm
    simp [h, and_assoc]
  · next h =>
    have hno : s.moistureAt (kilnNo k) = none := by
      cases hm : s.moistureAt (kilnNo k) with
      | none => rfl
      | some w => exact absurd hm (h f w rfl)
    simp [hno]

/-- Without peat the gate stays shut. -/
theorem State.evalGate_noPeat {s : State} {k : Fin 2} {f : KilnStage} (hf : (s.kiln k).fields = some f) (hp : f.peat = false)
    (hg : (s.kiln k).gate = false) : s.evalGate k = s := by
  have hwant : s.gateWanted k = false := Bool.eq_false_iff.2 fun h => by
    rw [State.gateWanted_iff hf, hp] at h
    exact Bool.noConfusion h.2.1
  unfold State.evalGate State.setGate
  rw [hwant]
  exact if_pos hg

/-! ## Offers leave the kilns -/

namespace State.SameButOffers

variable {a s : State} (h : a.SameButOffers s) {k : Fin 2}
include h

theorem kilnSend {st : KilnCfg → Nat} {code : Nat} : a.SameButOffers (s.kilnSend k st code) := h.sendTo
theorem kilnSendArg {st : KilnCfg → Nat} {code : Nat} {x : Int} : a.SameButOffers (s.kilnSendArg k st code x) := h.sendArgTo
theorem offerKilnAir {f : KilnStage} : a.SameButOffers (s.offerKilnAir k f) := h.kilnSendArg.kilnSend.kilnSendArg
theorem offerBurner : a.SameButOffers (s.offerBurner k) := h.kilnSend.kilnSendArg

theorem offerPeat : a.SameButOffers (s.offerPeat k) := by
  unfold State.offerPeat
  split
  · exact h.sendTo
  · exact h

theorem offerStage {f : KilnStage} : a.SameButOffers (s.offerStage k f) := by
  unfold State.offerStage
  dsimp only
  split
  · exact h.offerKilnAir.offerBurner.offerPeat
  · exact h.offerKilnAir.kilnSendArg

theorem offerCooling : a.SameButOffers (s.offerCooling k) := h.kilnSend.kilnSend.kilnSendArg

end State.SameButOffers

/-! ## Re-evaluation (R103) -/

/-- A kiln that waits for heat fires, from a firing time of 0. -/
def State.fires (s : State) (k : Fin 2) : State :=
  (s.onKiln k fun y => { y with phase := .firing, firing := 0, minutes := 0, minTaken := false }).post .phase .vessel (kilnNo k).val 3
    (s.kiln k).index

theorem State.fires_kiln (s : State) (k : Fin 2) :
    (s.fires k).kiln k = { s.kiln k with phase := .firing, firing := 0, minutes := 0, minTaken := false } :=
  (State.post_kiln ..).trans (State.kiln_onKiln_same ..)

theorem State.fires_kiln_ne (s : State) {k j : Fin 2} (h : j ≠ k) : (s.fires k).kiln j = s.kiln j :=
  (State.post_kiln ..).trans (State.kiln_onKiln_ne _ h _)

section

variable {s : State} {k : Fin 2} {f : KilnStage} (hf : (s.kiln k).fields = some f)

theorem State.regrants_iff : s.regrants k = true ↔ s.kilnMode k = .auto ∧
    (((s.kiln k).phase = .waitHeat ∧ (s.kiln k).index ≠ 255) ∨
      ((s.kiln k).phase = .firing ∧ ∃ f, (s.kiln k).fields = some f ∧ (s.kiln k).grant < f.request)) := by
  unfold State.regrants
  cases hf : (s.kiln k).fields <;> simp [hf]

/-- A kiln that does not re-evaluate, or finds no more than it has. -/
theorem State.regrant_same (h : s.regrants k = true → ∀ f, (s.kiln k).fields = some f →
    ((s.kiln k).phase = .waitHeat ∧ s.room k f.request < f.minDuty) ∨
      ((s.kiln k).phase ≠ .waitHeat ∧ s.room k f.request ≤ (s.kiln k).grant)) : s.regrant k = s := by
  unfold State.regrant
  split
  · next hr =>
    split
    · next f hf =>
      dsimp only
      rcases h hr f hf with ⟨hp, hg⟩ | ⟨hp, hg⟩
      · rw [if_pos hp, if_neg (Nat.not_le.2 hg)]
      · rw [if_neg hp, if_neg (Nat.not_lt.2 hg)]
    · rfl
  · rfl

include hf

theorem State.regrant_fires (hr : s.regrants k = true) (hp : (s.kiln k).phase = .waitHeat) (hm : f.minDuty ≤ s.room k f.request) :
    s.regrant k = ((((s.fires k).setGrant k (s.room k f.request)).evalGate k).offerBurner k).offerPeat k := by
  have hfires : (s.onKiln k fun y => { y with phase := .firing, firing := 0, minutes := 0, minTaken := false }).postPhase (kilnNo k)
      (s.kiln k).index = s.fires k := by
    unfold State.postPhase State.postVessel State.fires
    rw [State.phaseCode_kiln, State.kiln_onKiln_same]
    rfl
  unfold State.regrant
  rw [if_pos hr, hf]
  dsimp only
  rw [if_pos hp, if_pos hm, hfires]

theorem State.regrant_takes (hr : s.regrants k = true) (hp : (s.kiln k).phase = .firing) (hg : (s.kiln k).grant < s.room k f.request) :
    s.regrant k = (s.setGrant k (s.room k f.request)).kilnSendArg k (·.burner) cSETPOINT (s.room k f.request) := by
  unfold State.regrant
  rw [if_pos hr, hf]
  dsimp only
  rw [if_neg (by rw [hp]; decide), if_pos hg]

end

/-- A re-evaluation leaves the other kiln. -/
theorem State.regrant_kiln_ne (s : State) {k j : Fin 2} (h : j ≠ k) : (s.regrant k).kiln j = s.kiln j := by
  by_cases hr : s.regrants k = true
  · cases hf : (s.kiln k).fields with
    | none => rw [State.regrant_same fun _ f hs => nomatch hf.symm.trans hs]
    | some f =>
      by_cases hp : (s.kiln k).phase = .waitHeat
      · by_cases hm : f.minDuty ≤ s.room k f.request
        · rw [State.regrant_fires hf hr hp hm, (State.SameButOffers.refl _).offerBurner.offerPeat.kiln, State.evalGate_kiln_ne _ h,
            State.setGrant_kiln_ne _ h, State.fires_kiln_ne _ h]
        · rw [State.regrant_same fun _ g hs => .inl ⟨hp, Option.some.inj (hf.symm.trans hs) ▸ Nat.not_le.1 hm⟩]
      · have hfire : (s.kiln k).phase = .firing := by
          obtain ⟨-, ⟨hw, -⟩ | ⟨hfire, -⟩⟩ := State.regrants_iff.1 hr
          · exact absurd hw hp
          · exact hfire
        by_cases hg : (s.kiln k).grant < s.room k f.request
        · rw [State.regrant_takes hf hr hfire hg, (State.SameButOffers.refl _).kilnSendArg.kiln, State.setGrant_kiln_ne _ h]
        · rw [State.regrant_same fun _ g hs => .inr ⟨hp, Option.some.inj (hf.symm.trans hs) ▸ Nat.not_lt.1 hg⟩]
  · rw [State.regrant_same fun h => absurd h hr]

/-- The grant that is changed, and the cap and step timer with it. -/
theorem State.changeGrant_granted (s : State) (k : Fin 2) (g : Nat) : (s.kiln k).Granted g ((s.changeGrant k g).kiln k) := by
  unfold State.changeGrant
  dsimp only
  split
  · rw [State.regrant_kiln_ne _ (other_ne k).symm]
    exact s.setGrant_granted k g
  · exact s.setGrant_granted k g

namespace State.SameSurroundings

variable {a s : State} (h : a.SameSurroundings s) {k : Fin 2}
include h

theorem setGrant {g : Nat} : a.SameSurroundings (s.setGrant k g) := by
  unfold State.setGrant
  exact State.ite_of h.onKiln.setCap (State.ite_of h.onKiln.setCap h.onKiln)

theorem offerStage {f : KilnStage} : a.SameSurroundings (s.offerStage k f) := h.of_offers (State.SameButOffers.refl s).offerStage

theorem regrant : a.SameSurroundings (s.regrant k) := by
  unfold State.regrant
  split
  · split
    · refine State.ite_of (State.ite_of ?_ h) (State.ite_of h.setGrant.sendArgTo h)
      exact (State.SameSurroundings.evalGate (h.onKiln.post.setGrant)).of_offers (State.SameButOffers.refl _).offerBurner.offerPeat
    · exact h
  · exact h

theorem changeGrant {g : Nat} : a.SameSurroundings (s.changeGrant k g) := by
  unfold State.changeGrant
  exact State.ite_of h.setGrant.regrant h.setGrant

end State.SameSurroundings

end Sys2Proof.Machine
end

section
/-! PROOFS. The start of a kiln stage (R93, R102, R111). -/

namespace Sys2Proof.Machine

-- One declaration after the other: side by side, their stacks are more than the check's bound on memory.
set_option Elab.async false

/-! ## The stage is set -/

/-- The committed tables, the vessels' records and the batches are as before. -/
structure State.SameHoldings (s t : State) : Prop where
  tables : t.tables = s.tables
  vessels : t.vessels = s.vessels
  batch : t.batch = s.batch

namespace State.SameHoldings

variable {a s t : State}

theorem refl (s : State) : s.SameHoldings s := ⟨rfl, rfl, rfl⟩

theorem selfKept (a : State) : State.SelfKept a.SameHoldings where
  offers h hs := ⟨hs.tables.trans h.tables, hs.vessels.trans h.vessels, hs.batch.trans h.batch⟩
  onSteep h := ⟨h.tables, h.vessels, h.batch⟩
  onTurner h := ⟨h.tables, h.vessels, h.batch⟩
  onKiln _ h := ⟨h.tables, h.vessels, h.batch⟩
  onDemand h := ⟨h.tables, h.vessels, h.batch⟩

theorem of_surroundings (h : a.SameHoldings s) (hs : s.SameSurroundings t) : a.SameHoldings t :=
  ⟨hs.tables.trans h.tables, hs.vessels.trans h.vessels, hs.batch.trans h.batch⟩

theorem moistureAt (h : a.SameHoldings s) (v : Fin 12) : s.moistureAt v = a.moistureAt v := by
  unfold State.moistureAt State.batchAt
  rw [h.batch]

theorem kilnMode (h : a.SameHoldings s) (k : Fin 2) : s.kilnMode k = a.kilnMode k := by
  unfold State.kilnMode State.vessel
  rw [h.vessels]

theorem budget (h : a.SameHoldings s) : s.budget = a.budget := by
  unfold State.budget
  rw [h.tables]

end State.SameHoldings

/-- A stage at its start. -/
def Kiln.starts (x : Kiln) (n : Nat) (f : KilnStage) : Kiln :=
  { x with
    index := n, fields := some f, ring := [], streak := 0, declared := false, limitEnded := false, firing := 0, minutes := 0
    minTaken := false }

/-- A stage's record and its stage high limits, before its phase and its grant. -/
def State.stageSet (s : State) (k : Fin 2) (n : Nat) (f : KilnStage) : State :=
  ((s.onKiln k fun x => { x with index := n, fields := some f }).setStageHighs (kilnNo k) Role.airOn f.airHigh).onKiln k fun x => { x with
    ring := [], streak := 0, declared := false, limitEnded := false, firing := 0, minutes := 0, minTaken := false }

theorem State.stageSet_holdings (s : State) (k : Fin 2) (n : Nat) (f : KilnStage) : s.SameHoldings (s.stageSet k n f) := by
  have hset : s.SameHoldings ((s.onKiln k fun x => { x with index := n, fields := some f }).setStageHighs (kilnNo k) Role.airOn
      f.airHigh) := (State.SameHoldings.selfKept s).setStageHighs
        (fun h => ⟨h.tables, h.vessels, h.batch⟩) (s := s.onKiln k _) ⟨rfl, rfl, rfl⟩
  exact ⟨hset.tables, hset.vessels, hset.batch⟩

theorem State.stageSet_kiln (s : State) (k : Fin 2) (n : Nat) (f : KilnStage) :
    ((s.kiln k).starts n f).SameStage ((s.stageSet k n f).kiln k) := by
  have hset := State.SameKilns.selfKept (s.onKiln k fun x => { x with index := n, fields := some f }) |>.setStageHighs
    (fun h => h.of_kilns rfl) (State.SameKilns.refl _) (v := kilnNo k) (roles := Role.airOn) (x := f.airHigh) k
  unfold State.stageSet Kiln.SameStage
  unfold Kiln.SameStage at hset
  rw [State.kiln_onKiln_same, hset, State.kiln_onKiln_same]
  rfl

theorem Kiln.SameStage.grant {x y : Kiln} (h : x.SameStage y) : y.grant = x.grant := by
  unfold Kiln.SameStage at h
  rw [h]

theorem State.stageSet_kiln_other (s : State) (k : Fin 2) (n : Nat) (f : KilnStage) :
    ((s.stageSet k n f).kiln (other k)).grant = (s.kiln (other k)).grant := by
  have hset := State.SameKilns.selfKept (s.onKiln k fun x => { x with index := n, fields := some f }) |>.setStageHighs
    (fun h => h.of_kilns rfl) (State.SameKilns.refl _) (v := kilnNo k) (roles := Role.airOn) (x := f.airHigh) (other k)
  unfold Kiln.SameStage at hset
  unfold State.stageSet
  rw [State.kiln_onKiln_ne _ (other_ne k), hset, State.kiln_onKiln_ne _ (other_ne k)]

theorem State.stageSet_live {s : State} (hwf : s.tables.mp.wf = true) {k : Fin 2} {m : Nat} {e : MpEntry}
    (he : s.tables.mp.get m = some e) (hv : e.owner = .vessel (kilnNo k)) (hr : e.role = .airOnTemp) (n : Nat) (f : KilnStage) :
    ((s.stageSet k n f).live m).stageHigh = f.airHigh :=
  State.setStageHighs_live (s := s.onKiln k fun x => { x with index := n, fields := some f }) hwf he hv (by rw [hr]; rfl) f.airHigh

/-! ## The phase, the grant and the gate -/

/-- A phase is entered with its grant, and the gate is evaluated. -/
def State.entered (u : State) (k : Fin 2) (p : KilnState) (g : Nat) : State := ((u.kilnTo k p).changeGrant k g).evalGate k

theorem State.kilnTo_kiln (u : State) (k : Fin 2) (p : KilnState) : (u.kilnTo k p).kiln k = { u.kiln k with phase := p } := by
  rw [State.kilnTo_eq, State.post_kiln, State.kiln_onKiln_same]

theorem State.entered_surroundings (u : State) (k : Fin 2) (p : KilnState) (g : Nat) : u.SameSurroundings (u.entered k p g) :=
  (State.SameSurroundings.changeGrant (State.SameSurroundings.refl u).kilnTo).evalGate

/-- The kiln's record in the phase: its stage as it was, its grant, and its gate. -/
theorem State.entered_kiln {u : State} {k : Fin 2} {f : KilnStage} (hf : (u.kiln k).fields = some f) (p : KilnState) (g : Nat) :
    ∃ c st b, (u.entered k p g).kiln k = { u.kiln k with phase := p, grant := g, cap := c, step := st, gate := b } ∧
      (b = true ↔ p = .firing ∧ f.peat = true ∧ ∃ w, u.moistureAt (kilnNo k) = some w ∧ f.peatFloor ≤ w) := by
  let t : State := (u.kilnTo k p).changeGrant k g
  have hgrant : ((u.kilnTo k p).kiln k).Granted g (t.kiln k) := State.changeGrant_granted _ k g
  unfold Kiln.Granted at hgrant
  rw [State.kilnTo_kiln] at hgrant
  have hwater : t.moistureAt (kilnNo k) = u.moistureAt (kilnNo k) :=
    ((State.SameHoldings.refl u).of_surroundings (State.SameSurroundings.changeGrant (State.SameSurroundings.refl u).kilnTo)).moistureAt _
  refine ⟨(t.kiln k).cap, (t.kiln k).step, t.gateWanted k, ?_, ?_⟩
  · unfold State.entered
    rw [State.evalGate_kiln, hgrant]
  · rw [State.gateWanted_iff (s := t) (f := f) (by rw [hgrant]; exact hf), hwater, hgrant]

theorem State.startKilnStage_auto {s : State} {k : Fin 2} {n : Nat} {f : KilnStage} (hm : s.kilnMode k = .auto) :
    s.startKilnStage k n f =
      ((s.stageSet k n f).entered k ((s.stageSet k n f).grantFor k f).1 ((s.stageSet k n f).grantFor k f).2).offerStage k f :=
  if_pos (((s.stageSet_holdings k n f).kilnMode k).trans hm)

theorem State.startKilnStage_still {s : State} {k : Fin 2} {n : Nat} {f : KilnStage} (hm : s.kilnMode k ≠ .auto) :
    s.startKilnStage k n f = (s.stageSet k n f).entered k .firing (s.kiln k).grant := by
  let u : State := s.stageSet k n f
  have hgrant : (u.kiln k).grant = (s.kiln k).grant := (s.stageSet_kiln k n f).grant
  have hsame : (u.kilnTo k .firing).changeGrant k (s.kiln k).grant = u.kilnTo k .firing :=
    State.changeGrant_same (by rw [State.kilnTo_kiln]; exact hgrant)
  unfold State.entered
  rw [hsame]
  exact if_neg fun h => hm (((s.stageSet_holdings k n f).kilnMode k).symm.trans h)

/-- A kiln's record at the start of a stage: the stage, the phase and grant that AUTO computes or the grant as it was, and the
gate. -/
theorem State.startKilnStage_kiln (s : State) (k : Fin 2) (n : Nat) (f : KilnStage) :
    ∃ p g c st b th hs, (s.startKilnStage k n f).kiln k = { (s.kiln k).starts n f with
      phase := p, grant := g, cap := c, step := st, gate := b, thermal := th, heatSeen := hs } ∧
      (b = true ↔ p = .firing ∧ f.peat = true ∧ ∃ w, s.moistureAt (kilnNo k) = some w ∧ f.peatFloor ≤ w) ∧
      (s.kilnMode k = .auto → (p, g) = if f.minDuty ≤ min f.request (s.budget - (s.kiln (other k)).grant)
        then (.firing, min f.request (s.budget - (s.kiln (other k)).grant)) else (.waitHeat, 0)) ∧
      (s.kilnMode k ≠ .auto → p = .firing ∧ g = (s.kiln k).grant) := by
  let u : State := s.stageSet k n f
  have hhold := s.stageSet_holdings k n f
  have hstage := s.stageSet_kiln k n f
  have hf : (u.kiln k).fields = some f := by
    unfold Kiln.SameStage at hstage
    rw [hstage]
    rfl
  have hgrant : u.grantFor k f = if f.minDuty ≤ min f.request (s.budget - (s.kiln (other k)).grant)
      then (.firing, min f.request (s.budget - (s.kiln (other k)).grant)) else (.waitHeat, 0) := by
    unfold State.grantFor State.room
    rw [hhold.budget, s.stageSet_kiln_other k n f]
  unfold Kiln.SameStage at hstage
  by_cases hm : s.kilnMode k = .auto
  · obtain ⟨c, st, b, hk, hb⟩ := State.entered_kiln hf (u.grantFor k f).1 (u.grantFor k f).2
    refine ⟨(u.grantFor k f).1, (u.grantFor k f).2, c, st, b, (u.kiln k).thermal, (u.kiln k).heatSeen, ?_, ?_, fun _ => hgrant, fun h => absurd hm h⟩
    · rw [State.startKilnStage_auto hm, (State.SameButOffers.refl _).offerStage.kiln]
      exact hk.trans (by rw [hstage])
    · rw [hhold.moistureAt] at hb
      exact hb
  · obtain ⟨c, st, b, hk, hb⟩ := State.entered_kiln hf .firing (s.kiln k).grant
    refine ⟨.firing, (s.kiln k).grant, c, st, b, (u.kiln k).thermal, (u.kiln k).heatSeen, ?_, ?_, fun h => absurd h hm, fun _ => ⟨rfl, rfl⟩⟩
    · rw [State.startKilnStage_still hm]
      exact hk.trans (by rw [hstage])
    · rw [hhold.moistureAt] at hb
      exact hb

/-- Every AIR_ON_TEMP MP has the stage's high limit. -/
theorem State.startKilnStage_live {s : State} (hwf : s.tables.mp.wf = true) {k : Fin 2} {m : Nat} {e : MpEntry}
    (he : s.tables.mp.get m = some e) (hv : e.owner = .vessel (kilnNo k)) (hr : e.role = .airOnTemp) (n : Nat) (f : KilnStage) :
    ((s.startKilnStage k n f).live m).stageHigh = f.airHigh := by
  have hkept : (s.stageSet k n f).SameSurroundings (s.startKilnStage k n f) := by
    by_cases hm : s.kilnMode k = .auto
    · rw [State.startKilnStage_auto hm]
      exact (State.entered_surroundings ..).offerStage
    · rw [State.startKilnStage_still hm]
      exact State.entered_surroundings ..
  rw [State.live_of_intake hkept.intake]
  exact State.stageSet_live hwf he hv hr n f

/-- A stage end with a next stage, and a batch with a stage 0, start that stage. -/
theorem State.stageEnds_next {s : State} {k : Fin 2} {f : KilnStage} (h : (s.kilnStages k)[(s.kiln k).index + 1]? = some f) :
    s.kilnStageEnds k = s.startKilnStage k ((s.kiln k).index + 1) f := by
  unfold State.kilnStageEnds
  dsimp only
  rw [h]

theorem State.kilnBegin_first {s : State} {k : Fin 2} {f : KilnStage} (h : (s.kilnStages k)[0]? = some f) :
    s.kilnBegin k = s.startKilnStage k 0 f := by
  unfold State.kilnBegin
  rw [h]

theorem kilnStageStarts (s : State) (k : Fin 2) (n : Nat) (f : KilnStage) :
    let x := (s.startKilnStage k n f).kiln k
    let r := min f.request (s.budget - (s.kiln (other k)).grant)
    x.index = n ∧ x.fields = some f ∧ x.ring = [] ∧ x.streak = 0 ∧ x.declared = false ∧ x.limitEnded = false ∧
      x.firing = 0 ∧
      (s.tables.mp.wf = true → ∀ m e, s.tables.mp.get m = some e → e.owner = .vessel (kilnNo k) → e.role = .airOnTemp →
        ((s.startKilnStage k n f).live m).stageHigh = f.airHigh) ∧
      (x.gate = true ↔ x.phase = .firing ∧ f.peat = true ∧ ∃ w, s.moistureAt (kilnNo k) = some w ∧ f.peatFloor ≤ w) ∧
      (s.kilnMode k = .auto → f.minDuty ≤ r → x.phase = .firing ∧ x.grant = r) ∧
      (s.kilnMode k = .auto → r < f.minDuty → x.phase = .waitHeat ∧ x.grant = 0) ∧
      (s.kilnMode k ≠ .auto → x.phase = .firing ∧ x.grant = (s.kiln k).grant) := by
  intro x r
  obtain ⟨p, g, c, st, b, th, hs, hk, hb, hauto, hstill⟩ := s.startKilnStage_kiln k n f
  have hx : x = { (s.kiln k).starts n f with
    phase := p, grant := g, cap := c, step := st, gate := b, thermal := th, heatSeen := hs } := hk
  rw [hx]
  refine ⟨rfl, rfl, rfl, rfl, rfl, rfl, rfl, fun hwf m e he hv hr => State.startKilnStage_live hwf he hv hr n f, hb,
    fun hm hd => ?_, fun hm hd => ?_, hstill⟩
  · exact Prod.mk.inj ((hauto hm).trans (if_pos hd))
  · exact Prod.mk.inj ((hauto hm).trans (if_neg (Nat.not_le.2 hd)))

end Sys2Proof.Machine
end

section
/-! PROOFS. The commands of a kiln stage, and its whole start (R93, R102, R106). -/

namespace Sys2Proof.Machine

-- One declaration after the other: side by side, their stacks are more than the check's bound on memory.
set_option Elab.async false

/-! ## A kiln's stations -/

/-- An offer that finds room carries its argument as the kiln guard leaves it. -/
theorem State.blockOffer_guarded {s : State} {st code : Nat} {o : Origin} {p : Purpose} {a : Int}
    (h : s.roomFor st code o = true) (hp : s.peatShut st code = false) (ho : o ≠ .plant) :
    s.blockOffer o p st code (some a) = s.queued st code (s.burnerGuard st code a) o p := by
  let x : Offer := { station := st, code := code, arg := a, origin := o, answer := .block p s.filter.serial }
  have e : s.blockOffer o p st code (some a) = (s.onFilter fun f => { f with serial := s.filter.serial + 1 }).offer x := rfl
  rw [e, State.offer_room (o := x) ((State.roomFor_serial s (s.filter.serial + 1) st code o).trans h)
    ((State.peatShut_serial s (s.filter.serial + 1) st code).trans hp) ho, State.burnerGuard_serial]
  rfl

/-- Kiln k's burner is apart from both peat feeders and from the other kiln's burner. -/
structure State.BurnerApart (s : State) (k : Fin 2) (g : KilnCfg) : Prop where
  cfg : s.kilnCfg k = some g
  peat : g.peat ≠ some g.burner
  others : ∀ h, s.kilnCfg (other k) = some h → h.burner ≠ g.burner ∧ h.peat ≠ some g.burner

/-- Kiln k's stations are apart from each other and from the other kiln's burner and peat feeder. -/
structure State.KilnApart (s : State) (k : Fin 2) (g : KilnCfg) : Prop where
  burner : s.BurnerApart k g
  airFan : g.air ≠ g.fan
  burnerAir : g.burner ≠ g.air
  burnerFan : g.burner ≠ g.fan
  peatFan : g.peat ≠ some g.fan
  others : ∀ h, s.kilnCfg (other k) = some h → h.burner ≠ g.air ∧ h.burner ≠ g.fan ∧ h.peat ≠ some g.fan

theorem State.kilnCfg_congr {s t : State} (ht : t.tables = s.tables) (j : Fin 2) : t.kilnCfg j = s.kilnCfg j := by
  unfold State.kilnCfg
  rw [ht]

namespace State.BurnerApart

variable {s : State} {k : Fin 2} {g : KilnCfg} (h : s.BurnerApart k g)
include h

theorem of_tables {t : State} (ht : t.tables = s.tables) : t.BurnerApart k g :=
  ⟨(State.kilnCfg_congr ht k).trans h.cfg, h.peat, fun x hx => h.others x ((State.kilnCfg_congr ht _).symm.trans hx)⟩

/-- What holds of this kiln's stations and of the other's. -/
theorem each {P : KilnCfg → Prop} (hg : P g) (ho : ∀ x, s.kilnCfg (other k) = some x → P x) :
    ∀ i x, s.kilnCfg i = some x → P x := fun i x hx => by
  rcases eq_or_eq_other i k with rfl | rfl
  · exact Option.some.inj (h.cfg.symm.trans hx) ▸ hg
  · exact ho x hx

theorem shut : s.peatShut g.burner cRUN = false := State.peatShut_other (h.each h.peat fun x hx => (h.others x hx).2) cRUN

theorem other : (s.kilnCfg (other k)).map (·.burner) ≠ some g.burner := fun hb => by
  obtain ⟨x, hx, hxb⟩ := Option.map_eq_some_iff.1 hb
  exact (h.others x hx).1 hxb

end State.BurnerApart

namespace State.KilnApart

variable {s : State} {k : Fin 2} {g : KilnCfg} (h : s.KilnApart k g)
include h

theorem of_tables {t : State} (ht : t.tables = s.tables) : t.KilnApart k g :=
  ⟨h.burner.of_tables ht, h.airFan, h.burnerAir, h.burnerFan, h.peatFan,
    fun x hx => h.others x ((State.kilnCfg_congr ht _).symm.trans hx)⟩

theorem airGuard (a : Int) : s.burnerGuard g.air cSETPOINT a = a :=
  State.burnerGuard_other (h.burner.each h.burnerAir fun x hx => (h.others x hx).1) _ a

theorem fanGuard (a : Int) : s.burnerGuard g.fan cSETPOINT a = a :=
  State.burnerGuard_other (h.burner.each h.burnerFan fun x hx => (h.others x hx).2.1) _ a

theorem fanPeat : s.peatShut g.fan cRUN = false :=
  State.peatShut_other (h.burner.each h.peatFan fun x hx => (h.others x hx).2.2) cRUN

end State.KilnApart

/-- A duty for a kiln's own burner is narrowed to 0..c. -/
theorem State.burnerGuard_narrow {s : State} {k : Fin 2} {g : KilnCfg} (hg : s.kilnCfg k = some g)
    (ho : (s.kilnCfg (other k)).map (·.burner) ≠ some g.burner) (a : Int) :
    s.burnerGuard g.burner cSETPOINT a = narrow 0 (s.kiln k).cap a := by
  rw [State.burnerGuard_eq]
  obtain rfl | rfl : k = 0 ∨ k = 1 := eq_or_eq_other k 0
  · rw [State.capGuard_ne (k := 1) ho, State.capGuard_own hg rfl]
  · rw [State.capGuard_ne (k := 0) ho, State.capGuard_own hg rfl]

/-- The air and fan commands of a stage, one behind the other. -/
def State.aired (s : State) (k : Fin 2) (g : KilnCfg) (f : KilnStage) : State :=
  let a := s.queued g.air cSETPOINT f.air .sequencer (.vessel (kilnNo k))
  (a.queued g.fan cRUN a.noArg .sequencer (.vessel (kilnNo k))).queued g.fan cSETPOINT f.fan .sequencer (.vessel (kilnNo k))

section

variable {s : State} {k : Fin 2} {g : KilnCfg}

theorem State.offerKilnAir_room {f : KilnStage} (h : s.KilnApart k g) (hlen : s.filter.queue.length < 14)
    (hair : s.roomFor g.air cSETPOINT .sequencer = true) (hrun : s.roomFor g.fan cRUN .sequencer = true)
    (hset : s.roomFor g.fan cSETPOINT .sequencer = true) : s.offerKilnAir k f = s.aired k g f := by
  let a : State := s.queued g.air cSETPOINT f.air .sequencer (.vessel (kilnNo k))
  let b : State := a.queued g.fan cRUN a.noArg .sequencer (.vessel (kilnNo k))
  have h1 : s.kilnSendArg k (·.air) cSETPOINT f.air = a := by
    unfold State.kilnSendArg
    rw [h.burner.cfg]
    exact State.blockOffer_room (a := some f.air) hair (State.peatShut_of_code (by decide) _) (by decide) (h.airGuard _)
  have hrun' : a.roomFor g.fan cRUN .sequencer = true := State.roomFor_queued hrun (.inl h.airFan) (by omega) ..
  have h2 : a.kilnSend k (·.fan) cRUN = b := by
    unfold State.kilnSend
    rw [(h.of_tables (t := a) rfl).burner.cfg]
    exact State.blockOffer_room (a := none) hrun' (h.of_tables (t := a) rfl).fanPeat (by decide) (State.burnerGuard_of_code rfl _)
  have hset' : b.roomFor g.fan cSETPOINT .sequencer = true :=
    State.roomFor_queued (State.roomFor_queued hset (.inl h.airFan) (by omega) ..) (.inr (by decide)) (by
      rw [State.queued_length]
      omega) ..
  have h3 : b.kilnSendArg k (·.fan) cSETPOINT f.fan = b.queued g.fan cSETPOINT f.fan .sequencer (.vessel (kilnNo k)) := by
    unfold State.kilnSendArg
    rw [(h.of_tables (t := b) rfl).burner.cfg]
    exact State.blockOffer_room (a := some f.fan) hset' (State.peatShut_of_code (by decide) _) (by decide)
      ((h.of_tables (t := b) rfl).fanGuard _)
  unfold State.offerKilnAir
  rw [h1, h2, h3]
  rfl

/-- SETPOINT to a kiln's burner, narrowed to its cap. -/
theorem State.burnerSet_room (h : s.BurnerApart k g) (hroom : s.roomFor g.burner cSETPOINT .sequencer = true) (a : Int) :
    s.kilnSendArg k (·.burner) cSETPOINT a =
      s.queued g.burner cSETPOINT (narrow 0 (s.kiln k).cap a) .sequencer (.vessel (kilnNo k)) := by
  unfold State.kilnSendArg
  rw [h.cfg, ← State.burnerGuard_narrow h.cfg h.other]
  exact State.blockOffer_guarded hroom (State.peatShut_of_code (by decide) _) (by decide)

/-- RUN and SETPOINT to a burner whose cap stands within the grant. -/
theorem State.offerBurner_room (h : s.BurnerApart k g) (hlen : s.filter.queue.length < 15)
    (hrun : s.roomFor g.burner cRUN .sequencer = true) (hset : s.roomFor g.burner cSETPOINT .sequencer = true)
    (hcap : (s.kiln k).cap ≤ (s.kiln k).grant) :
    s.offerBurner k = (s.queued g.burner cRUN s.noArg .sequencer (.vessel (kilnNo k))).queued g.burner cSETPOINT (s.kiln k).cap
      .sequencer (.vessel (kilnNo k)) := by
  let a : State := s.queued g.burner cRUN s.noArg .sequencer (.vessel (kilnNo k))
  have h1 : s.kilnSend k (·.burner) cRUN = a := by
    unfold State.kilnSend
    rw [h.cfg]
    exact State.blockOffer_room (a := none) hrun h.shut (by decide) (State.burnerGuard_of_code rfl _)
  have hset' : a.roomFor g.burner cSETPOINT .sequencer = true := State.roomFor_queued hset (.inr (by decide)) hlen ..
  have hnarrow : narrow 0 (s.kiln k).cap ((s.kiln k).grant : Int) = (s.kiln k).cap := by
    unfold narrow
    split_ifs <;> omega
  unfold State.offerBurner
  rw [h1, State.burnerSet_room (h.of_tables (t := a) rfl) hset' _, State.queued_kiln, hnarrow]

theorem State.roomFor_aired {f : KilnStage} (h : s.KilnApart k g) (hlen : s.filter.queue.length < 12) {code : Nat}
    (hroom : s.roomFor g.burner code .sequencer = true) : (s.aired k g f).roomFor g.burner code .sequencer = true := by
  refine State.roomFor_queued (State.roomFor_queued (State.roomFor_queued hroom (.inl h.burnerAir.symm) (by omega) ..)
    (.inl h.burnerFan.symm) ?_ ..) (.inl h.burnerFan.symm) ?_ .. <;> simp only [State.queued_length] <;> omega

theorem State.aired_length (s : State) (k : Fin 2) (g : KilnCfg) (f : KilnStage) :
    (s.aired k g f).filter.queue.length = s.filter.queue.length + 3 := by
  simp only [State.aired, State.queued_length]

/-- The commands of a stage in FIRING without peat. -/
theorem State.offerStage_firing {f : KilnStage} (h : s.KilnApart k g) (hf : (s.kiln k).fields = some f) (hpeat : f.peat = false)
    (hp : (s.kiln k).phase = .firing) (hcap : (s.kiln k).cap ≤ (s.kiln k).grant) (hlen : s.filter.queue.length < 12)
    (hair : s.roomFor g.air cSETPOINT .sequencer = true) (hrun : s.roomFor g.fan cRUN .sequencer = true)
    (hset : s.roomFor g.fan cSETPOINT .sequencer = true) (hbrun : s.roomFor g.burner cRUN .sequencer = true)
    (hbset : s.roomFor g.burner cSETPOINT .sequencer = true) :
    let a := s.aired k g f
    s.offerStage k f = (a.queued g.burner cRUN a.noArg .sequencer (.vessel (kilnNo k))).queued g.burner cSETPOINT (s.kiln k).cap
      .sequencer (.vessel (kilnNo k)) := by
  intro a
  have hak : a.kiln k = s.kiln k := rfl
  have hburner : a.offerBurner k = (a.queued g.burner cRUN a.noArg .sequencer (.vessel (kilnNo k))).queued g.burner cSETPOINT
      (a.kiln k).cap .sequencer (.vessel (kilnNo k)) := by
    refine State.offerBurner_room (h.burner.of_tables rfl) ?_ (State.roomFor_aired h hlen hbrun) (State.roomFor_aired h hlen hbset) hcap
    rw [State.aired_length]
    omega
  have hnone : ∀ u : State, u.kiln k = s.kiln k → u.offerPeat k = u := fun u hu => by
    unfold State.offerPeat
    rw [hu, hf]
    exact if_neg (by simp [hpeat])
  unfold State.offerStage
  dsimp only
  rw [if_pos hp, State.offerKilnAir_room h (by omega) hair hrun hset, hburner, hak]
  refine hnone _ ?_
  rw [State.queued_kiln, State.queued_kiln, hak]

/-- The commands of a stage that waits for heat. -/
theorem State.offerStage_waits {f : KilnStage} (h : s.KilnApart k g) (hp : (s.kiln k).phase = .waitHeat)
    (hlen : s.filter.queue.length < 12) (hair : s.roomFor g.air cSETPOINT .sequencer = true)
    (hrun : s.roomFor g.fan cRUN .sequencer = true) (hset : s.roomFor g.fan cSETPOINT .sequencer = true)
    (hbset : s.roomFor g.burner cSETPOINT .sequencer = true) :
    s.offerStage k f = (s.aired k g f).queued g.burner cSETPOINT 0 .sequencer (.vessel (kilnNo k)) := by
  have hnarrow : narrow 0 ((s.kiln k).cap : Int) 0 = 0 := by
    unfold narrow
    split_ifs <;> omega
  unfold State.offerStage
  dsimp only
  rw [if_neg (by rw [hp]; decide), State.offerKilnAir_room h (by omega) hair hrun hset]
  refine (State.burnerSet_room (s := s.aired k g f) (h.burner.of_tables rfl) (State.roomFor_aired h hlen hbset) 0).trans ?_
  rw [show (s.aired k g f).kiln k = s.kiln k from rfl, hnarrow]

/-! ## The record and the notice of a start -/

/-- A stage's record in its phase, with its grant, its cap and its step timer, and the notice of the phase. -/
def State.kilnStarted (s : State) (k : Fin 2) (n : Nat) (f : KilnStage) (p : KilnState) (grant cap : Nat)
    (step : Option (StepDir × Nat)) : State :=
  (s.onKiln k fun x => { x.starts n f with phase := p, grant := grant, cap := cap, step := step }).post .phase .vessel (kilnNo k).val
    p.code n

theorem State.kilnStarted_kiln (s : State) (k : Fin 2) (n : Nat) (f : KilnStage) (p : KilnState) (grant cap : Nat)
    (step : Option (StepDir × Nat)) : (s.kilnStarted k n f p grant cap step).kiln k =
      { (s.kiln k).starts n f with phase := p, grant := grant, cap := cap, step := step } :=
  (State.post_kiln ..).trans (State.kiln_onKiln_same ..)

theorem State.kilnStarted_roomFor (s : State) (k : Fin 2) (n : Nat) (f : KilnStage) (p : KilnState) (grant cap : Nat)
    (step : Option (StepDir × Nat)) (st code : Nat) (o : Origin) :
    (s.kilnStarted k n f p grant cap step).roomFor st code o = s.roomFor st code o := State.roomFor_post ..

theorem State.kilnStarted_filter (s : State) (k : Fin 2) (n : Nat) (f : KilnStage) (p : KilnState) (grant cap : Nat)
    (step : Option (StepDir × Nat)) : (s.kilnStarted k n f p grant cap step).filter = s.filter := State.post_filter ..

theorem State.kilnStarted_work (s : State) (k : Fin 2) (n : Nat) (f : KilnStage) (p : KilnState) (grant cap : Nat)
    (step : Option (StepDir × Nat)) : (s.kilnStarted k n f p grant cap step).work = s.work := State.post_work ..

/-- The grant, the cap and the step timer of a record can be set before or after its notice. -/
theorem State.kilnStarted_onKiln (s : State) (k : Fin 2) (n : Nat) (f : KilnStage) (p : KilnState) (grant cap grant' cap' : Nat)
    (step step' : Option (StepDir × Nat)) :
    ((s.kilnStarted k n f p grant cap step).onKiln k fun x => { x with grant := grant', cap := cap', step := step' }) =
      s.kilnStarted k n f p grant' cap' step' := by
  have hside : State.Beside (·.onKiln k fun x => { x with grant := grant', cap := cap', step := step' }) :=
    State.beside_onKiln fun _ => rfl
  unfold State.kilnStarted
  rw [hside.post, State.onKiln_onKiln]

/-- The phase of a stage whose kiln has no AIR_ON_TEMP MP. -/
theorem State.stageSet_kilnTo {n : Nat} {f : KilnStage} (hmp : ∀ e ∈ s.tables.mp, e.2.owner = .vessel (kilnNo k) → e.2.role ≠ .airOnTemp)
    (p : KilnState) :
    (s.stageSet k n f).kilnTo k p = s.kilnStarted k n f p (s.kiln k).grant (s.kiln k).cap (s.kiln k).step := by
  have hset : s.stageSet k n f = s.onKiln k fun x => x.starts n f := by
    unfold State.stageSet
    rw [State.setStageHighs_none (s := s.onKiln k _) fun e he hv => Role.airOn_eq_false (hmp e he hv), State.onKiln_onKiln]
    rfl
  rw [hset, State.kilnTo_eq, State.onKiln_onKiln, State.kiln_onKiln_same]
  unfold State.kilnStarted
  rw [State.onKiln_congr (g := fun x => { x.starts n f with
    phase := p, grant := (s.kiln k).grant, cap := (s.kiln k).cap, step := (s.kiln k).step }) rfl]
  rfl

end

end Sys2Proof.Machine
end

section
/-! PROOFS. A kiln stage that starts at a stage end, whole (R93, R102, R106). -/

namespace Sys2Proof.Machine

-- One declaration after the other: side by side, their stacks are more than the check's bound on memory.
set_option Elab.async false

section

variable {s : State} {k : Fin 2} {g : KilnCfg} {f : KilnStage} {n r : Nat}

/-- The grant of a start without a change of the cap. -/
theorem State.kilnStarted_grant (p : KilnState) (a c : Nat) (st : Option (StepDir × Nat)) (r : Nat) :
    ((s.kilnStarted k n f p a c st).onKiln k fun x => { x with grant := r }) = s.kilnStarted k n f p r c st := by
  rw [State.onKiln_congr (g := fun x => { x with grant := r, cap := c, step := st }), State.kilnStarted_onKiln]
  rw [State.kilnStarted_kiln]

/-- A larger grant of a kiln whose cap stands at its target takes the cap with it. -/
theorem State.setGrant_steady (ha : s.BurnerApart k g) (hg : (s.kiln k).grant < r) (ht : (s.kiln k).thermal = .clear)
    (hc : (s.kiln k).cap = (s.kiln k).grant) (hb : s.kilnBlind k = false) (hroom : s.roomFor g.burner cDUTYCAP .override = true) :
    s.setGrant k r = (s.onKiln k fun x => { x with grant := r, cap := r, step := none }).queued g.burner cDUTYCAP r .override
      (.vessel (kilnNo k)) := by
  let a : State := s.onKiln k fun x => { x with grant := r }
  have hak : a.kiln k = { s.kiln k with grant := r } := State.kiln_onKiln_same ..
  have htarget : ∀ u : State, u.vessels = s.vessels → u.capTarget k = (u.kiln k).grant := fun u hu => by
    have hseen : u.kilnBlind k = false := by
      unfold State.kilnBlind State.vessel
      rw [hu]
      exact hb
    unfold State.capTarget
    dsimp only
    rw [hseen]
    exact if_neg Bool.false_ne_true
  have hne : (a.kiln k).cap ≠ r := by
    rw [hak]
    show (s.kiln k).cap ≠ r
    omega
  have hset : a.setCap k r = ((a.onKiln k fun x => { x with cap := r }).restCap k).queued g.burner cDUTYCAP r .override
      (.vessel (kilnNo k)) := State.setCap_told (s := a) ha.cfg ha.other hroom hne
  have hrest : (a.onKiln k fun x => { x with cap := r }).restCap k = s.onKiln k fun x => { x with
      grant := r, cap := r, step := none } := by
    have hkiln : (a.onKiln k fun x => { x with cap := r }).kiln k = { s.kiln k with grant := r, cap := r } := by
      rw [State.kiln_onKiln_same, hak]
    unfold State.restCap
    dsimp only
    rw [htarget (a.onKiln k fun x => { x with cap := r }) rfl, hkiln, if_pos ⟨rfl, by rw [ht]; decide⟩, State.onKiln_onKiln,
      State.onKiln_onKiln]
  have hthis : a.capTarget k = r := (htarget a rfl).trans (by rw [hak])
  unfold State.setGrant
  dsimp only
  rw [if_neg (Nat.lt_asymm hg), if_pos ⟨hg, ht, hc.trans (htarget s rfl).symm⟩]
  refine (congrArg (a.setCap k) hthis).trans ?_
  rw [hset, hrest]

theorem State.changeGrant_steady (ha : s.BurnerApart k g) (hg : (s.kiln k).grant < r) (ht : (s.kiln k).thermal = .clear)
    (hc : (s.kiln k).cap = (s.kiln k).grant) (hb : s.kilnBlind k = false) (hroom : s.roomFor g.burner cDUTYCAP .override = true) :
    s.changeGrant k r = (s.onKiln k fun x => { x with grant := r, cap := r, step := none }).queued g.burner cDUTYCAP r .override
      (.vessel (kilnNo k)) := by
  unfold State.changeGrant
  dsimp only
  rw [if_neg (Nat.lt_asymm hg)]
  exact State.setGrant_steady ha hg ht hc hb hroom

/-! ## The start in AUTO without AIR_ON_TEMP MPs -/

theorem State.stageSet_grantFor (s : State) (k : Fin 2) (n : Nat) (f : KilnStage) :
    (s.stageSet k n f).grantFor k f = s.grantFor k f := by
  unfold State.grantFor State.room
  rw [(s.stageSet_holdings k n f).budget, s.stageSet_kiln_other k n f]

theorem State.startKilnStage_fires (hm : s.kilnMode k = .auto)
    (hmp : ∀ e ∈ s.tables.mp, e.2.owner = .vessel (kilnNo k) → e.2.role ≠ .airOnTemp)
    (hd : f.minDuty ≤ s.room k f.request) : s.startKilnStage k n f =
      (((s.kilnStarted k n f .firing (s.kiln k).grant (s.kiln k).cap (s.kiln k).step).changeGrant k (s.room k f.request)).evalGate
        k).offerStage k f := by
  have hgrant : s.grantFor k f = (.firing, s.room k f.request) := if_pos hd
  rw [State.startKilnStage_auto hm, State.stageSet_grantFor, hgrant]
  unfold State.entered
  rw [State.stageSet_kilnTo hmp]

theorem State.startKilnStage_waits (hm : s.kilnMode k = .auto)
    (hmp : ∀ e ∈ s.tables.mp, e.2.owner = .vessel (kilnNo k) → e.2.role ≠ .airOnTemp)
    (hd : s.room k f.request < f.minDuty) : s.startKilnStage k n f =
      (((s.kilnStarted k n f .waitHeat (s.kiln k).grant (s.kiln k).cap (s.kiln k).step).changeGrant k 0).evalGate k).offerStage
        k f := by
  have hgrant : s.grantFor k f = (.waitHeat, 0) := if_neg (Nat.not_le.2 hd)
  rw [State.startKilnStage_auto hm, State.stageSet_grantFor, hgrant]
  unfold State.entered
  rw [State.stageSet_kilnTo hmp]

/-- A whole stage end: the kiln, at its minimum duration, with its end condition met, its next stage, and its stations. -/
structure State.StageEnds (s : State) (k : Fin 2) (g : KilnCfg) (f : KilnStage) : Prop where
  apart : s.KilnApart k g
  mode : s.kilnMode k = .auto
  mps : ∀ e ∈ s.tables.mp, e.2.owner = .vessel (kilnNo k) → e.2.role ≠ .airOnTemp
  noPeat : f.peat = false
  gate : (s.kiln k).gate = false
  cap : (s.kiln k).cap ≤ (s.kiln k).grant
  len : s.filter.queue.length ≤ 10
  air : s.roomFor g.air cSETPOINT .sequencer = true
  fanRun : s.roomFor g.fan cRUN .sequencer = true
  fanSet : s.roomFor g.fan cSETPOINT .sequencer = true
  burnerSet : s.roomFor g.burner cSETPOINT .sequencer = true

/-- The start waits for heat. -/
theorem State.StageEnds.waits (h : s.StageEnds k g f) (hd : s.room k f.request < f.minDuty) (hg : (s.kiln k).grant = 0) (n : Nat) :
    s.startKilnStage k n f = ((s.kilnStarted k n f .waitHeat 0 0 (s.kiln k).step).aired k g f).queued g.burner cSETPOINT 0 .sequencer
      (.vessel (kilnNo k)) := by
  have hcap : (s.kiln k).cap = 0 := by have := h.cap; omega
  let t : State := s.kilnStarted k n f .waitHeat 0 0 (s.kiln k).step
  have hk : t.kiln k = { (s.kiln k).starts n f with phase := .waitHeat, grant := 0, cap := 0, step := (s.kiln k).step } :=
    State.kilnStarted_kiln ..
  have hfil : t.filter = s.filter := State.kilnStarted_filter ..
  rw [State.startKilnStage_waits h.mode h.mps hd, hg, hcap, State.changeGrant_same (s := t) (by rw [hk]),
    State.evalGate_noPeat (s := t) (f := f) (by rw [hk]; rfl) h.noPeat (by rw [hk]; exact h.gate)]
  refine State.offerStage_waits (s := t) (h.apart.of_tables (State.post_tables ..)) (by rw [hk]) ?_ ?_ ?_ ?_ ?_
  · rw [hfil]
    have := h.len
    omega
  · exact (State.kilnStarted_roomFor ..).trans h.air
  · exact (State.kilnStarted_roomFor ..).trans h.fanRun
  · exact (State.kilnStarted_roomFor ..).trans h.fanSet
  · exact (State.kilnStarted_roomFor ..).trans h.burnerSet

/-- The commands of a stage that fires, behind the state t of its grant. -/
def State.fired (t : State) (k : Fin 2) (g : KilnCfg) (f : KilnStage) (c : Nat) : State :=
  let a := t.aired k g f
  (a.queued g.burner cRUN a.noArg .sequencer (.vessel (kilnNo k))).queued g.burner cSETPOINT c .sequencer (.vessel (kilnNo k))

/-- The start fires, where its grant leaves the cap or has been told to the burner. -/
theorem State.StageEnds.fires (h : s.StageEnds k g f) (hd : f.minDuty ≤ s.room k f.request)
    (hrun : s.roomFor g.burner cRUN .sequencer = true) {c : Nat} {st : Option (StepDir × Nat)} {n : Nat} (hc : c ≤ s.room k f.request)
    {t : State} (hg : (s.kilnStarted k n f .firing (s.kiln k).grant (s.kiln k).cap (s.kiln k).step).changeGrant k
      (s.room k f.request) = t)
    (ht : t = s.kilnStarted k n f .firing (s.room k f.request) c st ∨ t = (s.kilnStarted k n f .firing (s.room k f.request) c
      st).queued g.burner cDUTYCAP c .override (.vessel (kilnNo k))) : s.startKilnStage k n f = t.fired k g f c := by
  let u : State := s.kilnStarted k n f .firing (s.room k f.request) c st
  have huk : u.kiln k = { (s.kiln k).starts n f with phase := .firing, grant := s.room k f.request, cap := c, step := st } :=
    State.kilnStarted_kiln ..
  have hufil : u.filter = s.filter := State.kilnStarted_filter ..
  have hlen := h.len
  have hulen : u.filter.queue.length < 11 := by rw [hufil]; omega
  have hk : t.kiln k = u.kiln k := by rcases ht with rfl | rfl <;> rfl
  have htab : t.tables = s.tables := by
    have hu : u.tables = s.tables := State.post_tables ..
    rcases ht with rfl | rfl <;> exact hu
  have htlen : t.filter.queue.length < 12 := by
    rcases ht with rfl | rfl
    · exact Nat.lt_succ_of_lt hulen
    · rw [State.queued_length]
      exact Nat.succ_lt_succ hulen
  have hroom : ∀ st code, s.roomFor st code .sequencer = true → st ≠ g.burner ∨ code ≠ cDUTYCAP →
      t.roomFor st code .sequencer = true := fun st code hr hne => by
    have hu : u.roomFor st code .sequencer = true := (State.kilnStarted_roomFor ..).trans hr
    rcases ht with rfl | rfl
    · exact hu
    · exact State.roomFor_queued hu (hne.imp Ne.symm Ne.symm) (Nat.lt_of_lt_of_le hulen (by decide)) ..
  rw [State.startKilnStage_fires h.mode h.mps hd, hg, State.evalGate_noPeat (s := t) (f := f) (by rw [hk, huk]; rfl) h.noPeat
    (by rw [hk, huk]; exact h.gate)]
  have hoffer := State.offerStage_firing (s := t) (h.apart.of_tables htab) (f := f) (by rw [hk, huk]; rfl) h.noPeat (by rw [hk, huk])
    (by rw [hk, huk]; exact hc) htlen (hroom _ _ h.air (.inr (by decide))) (hroom _ _ h.fanRun (.inr (by decide)))
    (hroom _ _ h.fanSet (.inr (by decide))) (hroom _ _ hrun (.inr (by decide))) (hroom _ _ h.burnerSet (.inr (by decide)))
  rw [hk, huk] at hoffer
  exact hoffer

end

/-! ## The stage end at the minimum duration -/

theorem State.regrants_congr {s t : State} {k : Fin 2} (hm : t.kilnMode k = s.kilnMode k) (hk : t.kiln k = s.kiln k) :
    t.regrants k = s.regrants k := by
  unfold State.regrants
  rw [hm, hk]

/-- The test at the minimum duration whose condition is met ends the stage. -/
theorem exec_minimum_met {s : State} {k : Fin 2} {e f : KilnStage} (hf : (s.kiln k).fields = some e)
    (hmin : (s.kiln k).firing / 600 ≤ (s.kiln k).minutes) (hd : s.minimumDue k = true) (he : s.endMet k e = true)
    (hnext : (s.kilnStages k)[(s.kiln k).index + 1]? = some f) :
    exec (.firingTimeMinimum k) s = .next ((s.onKiln k fun x => { x with minTaken := true }).startKilnStage k
      ((s.kiln k).index + 1) f).settle := by
  let m : State := s.onKiln k fun x => { x with minTaken := true }
  have hmk : m.kiln k = { s.kiln k with minTaken := true } := State.kiln_onKiln_same ..
  have hdue := hd
  simp only [State.minimumDue, hf, Option.any_some, Bool.and_eq_true, decide_eq_true_eq] at hdue
  have hend : s.kilnMinimum k = m.kilnStageEnds k := by
    unfold State.kilnMinimum State.minimumTest
    rw [if_pos hd, State.takeDuePoints_none hmin, if_pos hd, State.endTest_eq (f := e) (by rw [State.kiln_onKiln_same]; exact hf)
      ((State.testsEnd_minTaken s k).trans hdue.1.1) (by rw [State.kiln_onKiln_same]; exact hdue.2), State.endMet_minTaken]
    exact if_pos he
  have hidx : (m.kiln k).index = (s.kiln k).index := by rw [hmk]
  show Host.Outcome.next (s.kilnMinimum k).settle = _
  rw [hend, State.stageEnds_next (s := m) (f := f) (by rw [hidx]; exact hnext), hidx]

theorem State.kilnStarted_minTaken (s : State) (k : Fin 2) (n : Nat) (f : KilnStage) (p : KilnState) (a c : Nat)
    (st : Option (StepDir × Nat)) :
    (s.onKiln k fun x => { x with minTaken := true }).kilnStarted k n f p a c st = s.kilnStarted k n f p a c st := by
  unfold State.kilnStarted
  rw [State.onKiln_onKiln]
  rfl

theorem State.fired_work (s : State) (k : Fin 2) (g : KilnCfg) (f : KilnStage) (c : Nat) : (s.fired k g f c).work = s.work := by
  simp only [State.fired, State.aired, State.queued_work]

theorem kilnStageStartsWhole (s : State) (k : Fin 2) (g : KilnCfg) (e f : KilnStage) (hw : s.work = [])
    (hf : (s.kiln k).fields = some e) (hmin : (s.kiln k).firing / 600 ≤ (s.kiln k).minutes) (hd : s.minimumDue k = true)
    (he : s.endMet k e = true) (hnext : (s.kilnStages k)[(s.kiln k).index + 1]? = some f)
    (hends : (s.onKiln k fun x => { x with minTaken := true }).StageEnds k g f) :
    let n := (s.kiln k).index + 1
    let y := s.kiln k
    let r := min f.request (s.budget - (s.kiln (other k)).grant)
    let fires (t : State) (c : Nat) : Prop := exec (.firingTimeMinimum k) s = .next (t.fired k g f c)
    (r < f.minDuty → y.grant = 0 → exec (.firingTimeMinimum k) s = .next (((s.kilnStarted k n f .waitHeat 0 0 y.step).aired k g
      f).queued g.burner cSETPOINT 0 .sequencer (.vessel (kilnNo k)))) ∧
    (f.minDuty ≤ r → s.roomFor g.burner cRUN .sequencer = true →
      (r = y.grant → fires (s.kilnStarted k n f .firing r y.cap y.step) y.cap) ∧
      (y.grant < r → y.thermal ≠ .clear → fires (s.kilnStarted k n f .firing r y.cap y.step) y.cap) ∧
      (y.grant < r → y.thermal = .clear → y.cap = y.grant → s.kilnBlind k = false →
        s.roomFor g.burner cDUTYCAP .override = true →
        fires ((s.kilnStarted k n f .firing r r none).queued g.burner cDUTYCAP r .override (.vessel (kilnNo k))) r) ∧
      (r < y.grant → s.regrants (other k) = false → y.thermal = .hot → y.cap ≤ r →
        fires (s.kilnStarted k n f .firing r y.cap y.step) y.cap)) := by
  intro n y r fires
  let m : State := s.onKiln k fun x => { x with minTaken := true }
  have hmk : m.kiln k = { y with minTaken := true } := State.kiln_onKiln_same ..
  have hroom : m.room k f.request = r := by
    unfold State.room
    rw [State.kiln_onKiln_ne _ (other_ne k)]
    rfl
  have hexec := exec_minimum_met hf hmin hd he hnext
  let t : State := s.kilnStarted k n f .firing y.grant y.cap y.step
  have hmt : m.kilnStarted k n f .firing (m.kiln k).grant (m.kiln k).cap (m.kiln k).step = t := by
    rw [hmk]
    exact State.kilnStarted_minTaken ..
  have htk : t.kiln k = { y.starts n f with phase := .firing, grant := y.grant, cap := y.cap, step := y.step } :=
    State.kilnStarted_kiln ..
  have htt : t.tables = s.tables := State.post_tables ..
  have htv : t.vessels = s.vessels := State.post_vessels ..
  have hcap : y.cap ≤ y.grant := by
    have h := hends.cap
    rw [hmk] at h
    exact h
  refine ⟨fun hlow hg => ?_, fun hhigh hrun => ?_⟩
  · have hstart := hends.waits (hroom.symm ▸ hlow) (by rw [hmk]; exact hg) n
    rw [State.kilnStarted_minTaken, hmk] at hstart
    rw [hexec, hstart, State.settle_of_idle]
    simp only [State.aired, State.queued_work, State.kilnStarted_work]
    exact hw
  · have hfires : ∀ (c : Nat) (st : Option (StepDir × Nat)) (u : State), c ≤ r → t.changeGrant k r = u →
        (u = s.kilnStarted k n f .firing r c st ∨ u = (s.kilnStarted k n f .firing r c st).queued g.burner cDUTYCAP c .override
          (.vessel (kilnNo k))) → fires u c := fun c st u hc hu hor => by
      have hwork : u.work = [] := by
        rcases hor with rfl | rfl
        · exact (State.kilnStarted_work ..).trans hw
        · exact (State.kilnStarted_work ..).trans hw
      have hstart := hends.fires (c := c) (st := st) (n := n) (t := u) (hroom.symm ▸ hhigh) hrun (hroom.symm ▸ hc)
        (by rw [hroom, hmt]; exact hu) (by rw [hroom, State.kilnStarted_minTaken]; exact hor)
      show exec _ s = _
      rw [hexec, hstart, State.settle_of_idle]
      rw [State.fired_work]
      exact hwork
    have hblind : t.kilnBlind k = s.kilnBlind k := congrArg VesselRec.blind (congrArg (bank · (kilnNo k)) htv)
    have hduties : t.roomFor g.burner cDUTYCAP .override = s.roomFor g.burner cDUTYCAP .override := State.kilnStarted_roomFor ..
    refine ⟨fun hg => ?_, fun hg hth => ?_, fun hg hth hc hb hduty => ?_, fun hg hr hth hc => ?_⟩
    · refine hfires y.cap y.step _ (hg ▸ hcap) ((State.changeGrant_same (g := r) ?_).trans ?_) (.inl rfl)
      · rw [htk]
        exact hg.symm
      · rw [hg]
    · exact hfires y.cap y.step _ (by omega) ((State.changeGrant_up (by rw [htk]; exact hg) (by rw [htk]; exact hth)).trans
        (State.kilnStarted_grant ..)) (.inl rfl)
    · refine hfires r none _ (Nat.le_refl r) ((State.changeGrant_steady (hends.apart.burner.of_tables htt)
        (by rw [htk]; exact hg) (by rw [htk]; exact hth) (by rw [htk]; exact hc) (hblind.trans hb)
        (hduties.trans hduty)).trans ?_) (.inr rfl)
      rw [State.kilnStarted_onKiln]
    · have hother : t.kiln (other k) = s.kiln (other k) :=
        (State.post_kiln ..).trans (State.kiln_onKiln_ne _ (other_ne k) _)
      have hreg : t.regrants (other k) = false :=
        (State.regrants_congr (congrArg VesselRec.mode (congrArg (bank · (kilnNo (other k))) htv)) hother).trans hr
      exact hfires y.cap y.step _ hc ((State.changeGrant_down (by rw [htk]; exact hg) (by rw [htk]; exact hc)
        (.inr (by rw [htk]; exact hth)) hreg).trans (State.kilnStarted_grant ..)) (.inl rfl)

end Sys2Proof.Machine
end

section
/-! PROOFS. A kiln's grant that falls, its cooling and the end of its program (R97, R103, R106, R118). -/

namespace Sys2Proof.Machine

-- One declaration after the other: side by side, their stacks are more than the check's bound on memory.
set_option Elab.async false

/-! ## A grant that falls (R103) -/

section

variable {s : State} {k : Fin 2} {a : Nat}

theorem State.changeGrant_falls (h : a < (s.kiln k).grant) : s.changeGrant k a = (s.setGrant k a).regrant (other k) := if_pos h

/-- The kiln whose grant falls: its cap comes within it. -/
theorem State.changeGrant_falls_kiln (h : a < (s.kiln k).grant) :
    ((s.changeGrant k a).kiln k).grant = a ∧ ((s.changeGrant k a).kiln k).cap = min (s.kiln k).cap a := by
  have hgrant := s.changeGrant_granted k a
  unfold Kiln.Granted at hgrant
  refine ⟨by rw [hgrant], ?_⟩
  rw [State.changeGrant_falls h, State.regrant_kiln_ne _ (other_ne k).symm, State.setGrant_cap_down h]

theorem State.setGrant_mode (s : State) (k : Fin 2) (a : Nat) (j : Fin 2) : (s.setGrant k a).kilnMode j = s.kilnMode j :=
  ((State.SameHoldings.refl s).of_surroundings (State.SameSurroundings.refl s).setGrant).kilnMode j

/-- What the fallen grant leaves for the other kiln. -/
theorem State.setGrant_room (s : State) (k : Fin 2) (a q : Nat) : (s.setGrant k a).room (other k) q = min q (s.budget - a) := by
  have hgrant := s.setGrant_granted k a
  unfold Kiln.Granted at hgrant
  unfold State.room
  rw [other_other, hgrant, ((State.SameHoldings.refl s).of_surroundings (State.SameSurroundings.refl s).setGrant).budget]

variable {f : KilnStage} (hf : (s.kiln (other k)).fields = some f)
include hf

/-- The other kiln waits for heat, and fires with what is free. -/
theorem State.changeGrant_fires (h : a < (s.kiln k).grant) (hm : s.kilnMode (other k) = .auto)
    (hp : (s.kiln (other k)).phase = .waitHeat) (hi : (s.kiln (other k)).index ≠ 255) (hd : f.minDuty ≤ min f.request (s.budget - a)) :
    s.changeGrant k a = (((((s.setGrant k a).fires (other k)).setGrant (other k) (min f.request (s.budget - a))).evalGate
      (other k)).offerBurner (other k)).offerPeat (other k) := by
  let u : State := s.setGrant k a
  have hk : u.kiln (other k) = s.kiln (other k) := State.setGrant_kiln_ne _ (other_ne k) a
  have hreg : u.regrants (other k) = true :=
    State.regrants_iff.2 ⟨(State.setGrant_mode ..).trans hm, .inl ⟨by rw [hk]; exact hp, by rw [hk]; exact hi⟩⟩
  rw [State.changeGrant_falls h, State.regrant_fires (s := u) (f := f) (by rw [hk]; exact hf) hreg (by rw [hk]; exact hp)
    (by rw [State.setGrant_room]; exact hd), State.setGrant_room]

theorem State.changeGrant_fires_kiln (h : a < (s.kiln k).grant) (hm : s.kilnMode (other k) = .auto)
    (hp : (s.kiln (other k)).phase = .waitHeat) (hi : (s.kiln (other k)).index ≠ 255) (hd : f.minDuty ≤ min f.request (s.budget - a)) :
    ∃ c st b, (s.changeGrant k a).kiln (other k) = { s.kiln (other k) with
      phase := .firing, firing := 0, minutes := 0, minTaken := false, grant := min f.request (s.budget - a), cap := c, step := st
      gate := b } := by
  let w : State := ((s.setGrant k a).fires (other k)).setGrant (other k) (min f.request (s.budget - a))
  have hgrant := State.setGrant_granted ((s.setGrant k a).fires (other k)) (other k) (min f.request (s.budget - a))
  unfold Kiln.Granted at hgrant
  rw [State.fires_kiln, State.setGrant_kiln_ne _ (other_ne k)] at hgrant
  refine ⟨(w.kiln (other k)).cap, (w.kiln (other k)).step, w.gateWanted (other k), ?_⟩
  rw [State.changeGrant_fires hf h hm hp hi hd, (State.SameButOffers.refl _).offerBurner.offerPeat.kiln, State.evalGate_kiln, hgrant]

/-- The other kiln fires below its request, and takes what is free. -/
theorem State.changeGrant_takes_kiln (h : a < (s.kiln k).grant) (hm : s.kilnMode (other k) = .auto)
    (hp : (s.kiln (other k)).phase = .firing) (hg : (s.kiln (other k)).grant < f.request) :
    ((s.changeGrant k a).kiln (other k)).phase = .firing ∧
      ((s.changeGrant k a).kiln (other k)).grant = max (s.kiln (other k)).grant (min f.request (s.budget - a)) := by
  let u : State := s.setGrant k a
  have hk : u.kiln (other k) = s.kiln (other k) := State.setGrant_kiln_ne _ (other_ne k) a
  have hreg : u.regrants (other k) = true :=
    State.regrants_iff.2 ⟨(State.setGrant_mode ..).trans hm, .inr ⟨by rw [hk]; exact hp, f, by rw [hk]; exact hf, by rw [hk]; exact hg⟩⟩
  have hroom : u.room (other k) f.request = min f.request (s.budget - a) := State.setGrant_room ..
  rw [State.changeGrant_falls h]
  by_cases hmore : (s.kiln (other k)).grant < min f.request (s.budget - a)
  · have hgrant := State.setGrant_granted u (other k) (min f.request (s.budget - a))
    unfold Kiln.Granted at hgrant
    rw [State.regrant_takes (s := u) (f := f) (by rw [hk]; exact hf) hreg (by rw [hk]; exact hp) (by rw [hk, hroom]; exact hmore), hroom,
      (State.SameButOffers.refl _).kilnSendArg.kiln, hgrant, hk]
    exact ⟨hp, (Nat.max_eq_right (Nat.le_of_lt hmore)).symm⟩
  · have hsame : u.regrant (other k) = u := State.regrant_same fun _ x hx => .inr ⟨by rw [hk, hp]; decide, by
      obtain rfl := Option.some.inj ((hk ▸ hf).symm.trans hx)
      rw [hk, hroom]
      exact Nat.not_lt.1 hmore⟩
    rw [hsame, hk]
    exact ⟨hp, (Nat.max_eq_left (Nat.not_lt.1 hmore)).symm⟩

/-- The other kiln does not re-evaluate, or what is free is too little for it or no more than it has. -/
theorem State.changeGrant_rests_kiln (h : a < (s.kiln k).grant)
    (hno : s.kilnMode (other k) ≠ .auto ∨ ((s.kiln (other k)).phase = .waitHeat ∧ ((s.kiln (other k)).index = 255 ∨
      min f.request (s.budget - a) < f.minDuty)) ∨ ((s.kiln (other k)).phase = .firing ∧ f.request ≤ (s.kiln (other k)).grant) ∨
        ((s.kiln (other k)).phase ≠ .waitHeat ∧ (s.kiln (other k)).phase ≠ .firing)) :
    (s.changeGrant k a).kiln (other k) = s.kiln (other k) := by
  let u : State := s.setGrant k a
  have hk : u.kiln (other k) = s.kiln (other k) := State.setGrant_kiln_ne _ (other_ne k) a
  have hsame : u.regrant (other k) = u := State.regrant_same fun hr x hx => by
    obtain rfl := Option.some.inj ((hk ▸ hf).symm.trans hx)
    rw [State.regrants_iff, hk, State.setGrant_mode] at hr
    rw [hk, State.setGrant_room]
    obtain ⟨hm, hr⟩ := hr
    rcases hno with hno | ⟨hp, hi | hd⟩ | ⟨hp, hg⟩ | ⟨hw, hf⟩
    · exact absurd hm hno
    · rcases hr with ⟨-, hi'⟩ | ⟨hp', -⟩
      · exact absurd hi hi'
      · exact nomatch hp.symm.trans hp'
    · exact .inl ⟨hp, hd⟩
    · exact .inr ⟨by rw [hp]; decide, (Nat.min_le_left ..).trans hg⟩
    · exact absurd hr (by simp [hw, hf])
  rw [State.changeGrant_falls h, hsame, hk]

omit hf in
/-- A kiln that fires with its grant, its cap and its step timer set. -/
theorem State.fires_granted (u : State) (j : Fin 2) (r : Nat) :
    ((u.fires j).onKiln j fun x => { x with grant := r, cap := r, step := none }) = (u.onKiln j fun z => { z with
      phase := .firing, firing := 0, minutes := 0, minTaken := false, grant := r, cap := r, step := none }).post .phase .vessel
        (kilnNo j).val 3 (u.kiln j).index := by
  have hside : State.Beside (·.onKiln j fun x => { x with grant := r, cap := r, step := none }) := State.beside_onKiln fun _ => rfl
  unfold State.fires
  rw [hside.post, State.onKiln_onKiln]

/-- The whole of it, for a CLEAR kiln without a cap and a grant, its gate shut, and no peat. -/
theorem State.changeGrant_fires_whole (h : a < (s.kiln k).grant) (hm : s.kilnMode (other k) = .auto)
    (hp : (s.kiln (other k)).phase = .waitHeat) (hi : (s.kiln (other k)).index ≠ 255) (hd : f.minDuty ≤ min f.request (s.budget - a))
    {g : KilnCfg} (hap : s.BurnerApart (other k) g) (ht : (s.kiln (other k)).thermal = .clear) (hb : s.kilnBlind (other k) = false)
    (hc : (s.kiln (other k)).cap = 0) (hg : (s.kiln (other k)).grant = 0) (hgate : (s.kiln (other k)).gate = false)
    (hpeat : f.peat = false) (hpos : 0 < min f.request (s.budget - a)) (hlen : (s.setGrant k a).filter.queue.length < 14)
    (hduty : (s.setGrant k a).roomFor g.burner cDUTYCAP .override = true)
    (hrun : (s.setGrant k a).roomFor g.burner cRUN .sequencer = true)
    (hset : (s.setGrant k a).roomFor g.burner cSETPOINT .sequencer = true) :
    let v : Fin 12 := kilnNo (other k)
    let r := min f.request (s.budget - a)
    let b := (((s.setGrant k a).onKiln (other k) fun z => { z with
      phase := .firing, firing := 0, minutes := 0, minTaken := false, grant := r, cap := r, step := none }).post .phase .vessel
        v.val 3 (s.kiln (other k)).index).queued g.burner cDUTYCAP r .override (.vessel v)
    s.changeGrant k a = (b.queued g.burner cRUN b.noArg .sequencer (.vessel v)).queued g.burner cSETPOINT r .sequencer (.vessel v) := by
  intro v r b
  let u : State := s.setGrant k a
  let w : State := u.fires (other k)
  have huk : u.kiln (other k) = s.kiln (other k) := State.setGrant_kiln_ne _ (other_ne k) a
  have hwk : w.kiln (other k) = { s.kiln (other k) with phase := .firing, firing := 0, minutes := 0, minTaken := false } := by
    rw [show w.kiln (other k) = _ from State.fires_kiln .., huk]
  have hutab : u.tables = s.tables := State.setGrant_tables ..
  have hwtab : w.tables = s.tables := (State.post_tables ..).trans hutab
  have hwroom : ∀ st code o, w.roomFor st code o = u.roomFor st code o := fun st code o => State.roomFor_post ..
  have hwblind : w.kilnBlind (other k) = false := by
    have hv : w.vessels = s.vessels := (State.post_vessels ..).trans (State.SameSurroundings.refl s).setGrant.vessels
    unfold State.kilnBlind State.vessel
    rw [hv]
    exact hb
  have hb' : w.setGrant (other k) r = b := by
    rw [State.setGrant_steady (s := w) (hap.of_tables hwtab) (by rw [hwk, hg]; exact hpos) (by rw [hwk]; exact ht)
      (by rw [hwk]; exact hc.trans hg.symm) hwblind (by rw [hwroom]; exact hduty), State.fires_granted, huk]
  let q : State := (u.onKiln (other k) fun z => { z with
    phase := .firing, firing := 0, minutes := 0, minTaken := false, grant := r, cap := r, step := none }).post .phase .vessel
      v.val 3 (s.kiln (other k)).index
  have hqb : b = q.queued g.burner cDUTYCAP r .override (.vessel v) := rfl
  have hqfil : q.filter = u.filter := State.post_filter ..
  have hqtab : q.tables = s.tables := (State.post_tables ..).trans hutab
  have hqroom : ∀ st code o, q.roomFor st code o = u.roomFor st code o := fun st code o => State.roomFor_post ..
  have hbk : b.kiln (other k) = { s.kiln (other k) with
      phase := .firing, firing := 0, minutes := 0, minTaken := false, grant := r, cap := r, step := none } := by
    rw [hqb, State.queued_kiln, State.post_kiln, State.kiln_onKiln_same, huk]
  have hbtab : b.tables = s.tables := by rw [hqb, State.queued_tables, hqtab]
  have hbroom : ∀ code, u.roomFor g.burner code .sequencer = true → code ≠ cDUTYCAP → b.roomFor g.burner code .sequencer = true :=
    fun code hr hne => State.roomFor_queued ((hqroom ..).trans hr) (.inr hne.symm) (hqfil ▸ Nat.lt_succ_of_lt hlen) ..
  have hblen : b.filter.queue.length < 15 := by
    rw [hqb, State.queued_length, hqfil]
    exact Nat.succ_lt_succ hlen
  have hnone : ∀ x : State, x.kiln (other k) = b.kiln (other k) → x.offerPeat (other k) = x := fun x hx => by
    unfold State.offerPeat
    rw [hx, hbk, show ({ s.kiln (other k) with
      phase := .firing, firing := 0, minutes := 0, minTaken := false, grant := r, cap := r, step := none } : Kiln).fields = some f from hf]
    exact if_neg (by simp [hpeat])
  rw [State.changeGrant_fires hf h hm hp hi hd, hb', State.evalGate_noPeat (s := b) (f := f) (by rw [hbk]; exact hf) hpeat
    (by rw [hbk]; exact hgate), State.offerBurner_room (s := b) (hap.of_tables hbtab) hblen (hbroom _ hrun (by decide))
    (hbroom _ hset (by decide)) (by rw [hbk]), hnone _ (by rw [State.queued_kiln, State.queued_kiln]), hbk]

end

/-! ## What a re-evaluation depends on -/

theorem State.SameHoldings.of_both {s t u v : State} (h : s.SameHoldings t) (hs : s.SameSurroundings u)
    (ht : t.SameSurroundings v) : u.SameHoldings v :=
  ⟨ht.tables.trans (h.tables.trans hs.tables.symm), ht.vessels.trans (h.vessels.trans hs.vessels.symm),
    ht.batch.trans (h.batch.trans hs.batch.symm)⟩

section

variable {s t : State} {k : Fin 2} (h : s.SameHoldings t)
include h

theorem State.capTarget_congr (hg : (t.kiln k).grant = (s.kiln k).grant) : t.capTarget k = s.capTarget k := by
  unfold State.capTarget State.blindCap State.kilnWide State.kilnBlind State.vessel State.batchAt
  rw [hg, h.vessels, h.batch, h.tables]

variable (hk : t.kiln k = s.kiln k)
include hk

theorem State.restCap_kiln_congr : (t.restCap k).kiln k = (s.restCap k).kiln k := by
  unfold State.restCap
  dsimp only
  rw [hk, State.capTarget_congr h (congrArg Kiln.grant hk)]
  split
  · rw [State.kiln_onKiln_same, State.kiln_onKiln_same, hk]
  · exact hk

theorem State.setCap_kiln_congr (c : Nat) : (t.setCap k c).kiln k = (s.setCap k c).kiln k := by
  unfold State.setCap
  rw [hk]
  split
  · exact State.restCap_kiln_congr h hk
  · rw [(State.SameButOffers.refl _).sendArgTo.kiln, (State.SameButOffers.refl _).sendArgTo.kiln]
    exact State.restCap_kiln_congr (s := s.onKiln k _) (t := t.onKiln k _) ⟨h.tables, h.vessels, h.batch⟩
      (by rw [State.kiln_onKiln_same, State.kiln_onKiln_same, hk])

theorem State.setGrant_kiln_congr (g : Nat) : (t.setGrant k g).kiln k = (s.setGrant k g).kiln k := by
  have hkiln : (t.onKiln k fun y => { y with grant := g }).kiln k = (s.onKiln k fun y => { y with grant := g }).kiln k := by
    rw [State.kiln_onKiln_same, State.kiln_onKiln_same, hk]
  have hold : (s.onKiln k fun y => { y with grant := g }).SameHoldings (t.onKiln k fun y => { y with grant := g }) :=
    ⟨h.tables, h.vessels, h.batch⟩
  unfold State.setGrant
  dsimp only
  rw [hk, State.capTarget_congr h (congrArg Kiln.grant hk), State.capTarget_congr hold (congrArg Kiln.grant hkiln)]
  split_ifs
  · exact State.setCap_kiln_congr hold hkiln _
  · exact State.setCap_kiln_congr hold hkiln _
  · exact hkiln

theorem State.gateWanted_congr : t.gateWanted k = s.gateWanted k := by
  unfold State.gateWanted
  rw [hk, h.moistureAt]

theorem State.evalGate_kiln_congr : (t.evalGate k).kiln k = (s.evalGate k).kiln k := by
  rw [State.evalGate_kiln, State.evalGate_kiln, hk, State.gateWanted_congr h hk]

/-- The record of a kiln that re-evaluates depends on its record, the other's grant, and what the part holds. -/
theorem State.regrant_kiln_congr (ho : (t.kiln (other k)).grant = (s.kiln (other k)).grant) :
    (t.regrant k).kiln k = (s.regrant k).kiln k := by
  have hreg : t.regrants k = s.regrants k := State.regrants_congr (h.kilnMode k) hk
  have hroom : ∀ q, t.room k q = s.room k q := fun q => by
    unfold State.room
    rw [h.budget, ho]
  have hfires : (s.fires k).SameHoldings (t.fires k) :=
    h.of_both (State.SameSurroundings.refl s).onKiln.post (State.SameSurroundings.refl t).onKiln.post
  have hgrant : ∀ g, ((s.fires k).setGrant k g).SameHoldings ((t.fires k).setGrant k g) := fun g =>
    hfires.of_both (State.SameSurroundings.refl _).setGrant (State.SameSurroundings.refl _).setGrant
  unfold State.regrant
  rw [hreg, hk]
  split
  · split
    · next f hf =>
      dsimp only
      rw [hroom]
      split_ifs
      · have hpost : ∀ u : State, (u.onKiln k fun y => { y with
            phase := .firing, firing := 0, minutes := 0, minTaken := false }).postPhase (kilnNo k) (u.kiln k).index = u.fires k := fun u => by
          unfold State.postPhase State.postVessel State.fires
          rw [State.phaseCode_kiln, State.kiln_onKiln_same]
          rfl
        rw [← hk, hpost t, hk, hpost s, (State.SameButOffers.refl _).offerBurner.offerPeat.kiln,
          (State.SameButOffers.refl _).offerBurner.offerPeat.kiln]
        refine State.evalGate_kiln_congr (hgrant _) (State.setGrant_kiln_congr hfires ?_ _)
        rw [State.fires_kiln, State.fires_kiln, hk]
      · exact hk
      · rw [(State.SameButOffers.refl _).kilnSendArg.kiln, (State.SameButOffers.refl _).kilnSendArg.kiln]
        exact State.setGrant_kiln_congr h hk _
      · exact hk
    · exact hk
  · exact hk

end

end Sys2Proof.Machine
end

section
/-! PROOFS. A kiln's cooling and the end of it (R97, R118), and the whole of its stages. -/

namespace Sys2Proof.Machine

-- One declaration after the other: side by side, their stacks are more than the check's bound on memory.
set_option Elab.async false

/-! ## COOLING (R97) -/

section

variable {s : State} {k : Fin 2}

/-- The kiln in COOLING, before its grant is taken. -/
def State.coolStarted (s : State) (k : Fin 2) : State := (s.onKiln k fun x => { x with limitEnded := false }).kilnTo k .cooling

theorem State.coolStarted_kiln (s : State) (k : Fin 2) :
    (s.coolStarted k).kiln k = { s.kiln k with limitEnded := false, phase := .cooling } := by
  unfold State.coolStarted
  rw [State.kilnTo_kiln, State.kiln_onKiln_same]

theorem State.coolStarted_surroundings (s : State) (k : Fin 2) : s.SameSurroundings (s.coolStarted k) :=
  (State.SameSurroundings.refl s).onKiln.kilnTo

/-- Out of FIRING the gate is to be shut. -/
theorem State.gateWanted_shut (h : (s.kiln k).phase ≠ .firing) : s.gateWanted k = false := by
  unfold State.gateWanted
  split
  · rw [decide_eq_false h]
    rfl
  · rfl

/-- The grant is taken, and the cap with it. -/
theorem State.changeGrant_zero (hc : (s.kiln k).cap ≤ (s.kiln k).grant) :
    (s.changeGrant k 0).kiln k = { s.kiln k with grant := 0, cap := 0, step := ((s.changeGrant k 0).kiln k).step } := by
  have hgrant := s.changeGrant_granted k 0
  unfold Kiln.Granted at hgrant
  have hcap : ((s.changeGrant k 0).kiln k).cap = 0 := by
    rcases Nat.eq_zero_or_pos (s.kiln k).grant with hg | hg
    · rw [State.changeGrant_same hg]
      omega
    · exact (State.changeGrant_falls_kiln hg).2.trans (Nat.min_zero _)
  rw [hcap] at hgrant
  exact hgrant

/-- What the other kiln makes of the grant does not depend on the phase of the kiln that gives it up. -/
theorem State.coolStarted_other (s : State) (k : Fin 2) :
    ((s.coolStarted k).changeGrant k 0).kiln (other k) = (s.changeGrant k 0).kiln (other k) := by
  have hck := s.coolStarted_kiln k
  have hother : (s.coolStarted k).kiln (other k) = s.kiln (other k) := by
    unfold State.coolStarted
    rw [State.kilnTo_kiln_other, State.kiln_onKiln_ne _ (other_ne k)]
  rcases Nat.eq_zero_or_pos (s.kiln k).grant with hg | hg
  · rw [State.changeGrant_same hg, State.changeGrant_same (s := s.coolStarted k) (by rw [hck]; exact hg)]
    exact hother
  · rw [State.changeGrant_falls hg, State.changeGrant_falls (s := s.coolStarted k) (by rw [hck]; exact hg)]
    have hold : (s.setGrant k 0).SameHoldings ((s.coolStarted k).setGrant k 0) :=
      (State.SameHoldings.refl s).of_both (State.SameSurroundings.refl s).setGrant (s.coolStarted_surroundings k).setGrant
    refine State.regrant_kiln_congr hold ?_ ?_
    · rw [State.setGrant_kiln_ne _ (other_ne k), State.setGrant_kiln_ne _ (other_ne k)]
      exact hother
    · rw [other_other, (State.setGrant_kiln_same ..).1, (State.setGrant_kiln_same ..).1]

/-- The kilns in COOLING. -/
theorem State.kilnCools_kilns {w : KilnWide} (hw : s.kilnWide k = some w) (hc : (s.kiln k).cap ≤ (s.kiln k).grant) :
    (s.kilnCools k).kiln k = { s.kiln k with
      phase := .cooling, limitEnded := false, grant := 0, cap := 0, step := none, gate := false, cool := some (w.coolDur * 600) } ∧
      (s.kilnCools k).kiln (other k) = (s.changeGrant k 0).kiln (other k) := by
  let s1 : State := s.coolStarted k
  let s2 : State := (s1.changeGrant k 0).onKiln k fun x => { x with step := none }
  let s3 : State := (s2.evalGate k).onKiln k fun x => { x with cool := (s.kilnWide k).map fun w => w.coolDur * 600 }
  have hends : ∀ j, (s.kilnCools k).kiln j = s3.kiln j := fun j => by
    show (if s3.kilnMode k = .auto then s3.offerCooling k else s3).kiln j = _
    split
    · exact (State.SameButOffers.refl _).offerCooling.kiln j
    · rfl
  have h1 := s.coolStarted_kiln k
  have hzero := State.changeGrant_zero (s := s1) (k := k) (by rw [h1]; exact hc)
  have h2 : s2.kiln k = { s.kiln k with phase := .cooling, limitEnded := false, grant := 0, cap := 0, step := none } := by
    rw [show s2.kiln k = _ from State.kiln_onKiln_same .., hzero, h1]
  refine ⟨?_, ?_⟩
  · rw [hends, show s3.kiln k = _ from State.kiln_onKiln_same .., State.evalGate_kiln, State.gateWanted_shut (by rw [h2]; exact fun h => nomatch h), h2,
      hw]
    rfl
  · rw [hends, show s3.kiln (other k) = _ from State.kiln_onKiln_ne _ (other_ne k) _, State.evalGate_kiln_ne _ (other_ne k),
      show s2.kiln (other k) = _ from State.kiln_onKiln_ne _ (other_ne k) _]
    exact s.coolStarted_other k

theorem State.stageEnds_last (h : (s.kilnStages k)[(s.kiln k).index + 1]? = none) : s.kilnStageEnds k = s.kilnCools k := by
  unfold State.kilnStageEnds
  dsimp only
  rw [h]

/-! ## The end of COOLING (R97, R118) -/

theorem State.postRequest_kiln (hq : s.hasRequest (kilnNo k) = false) :
    s.postRequest (kilnNo k) = s.addRequest { kind := .strip, source := kilnNo k, dest := some 12, fromPlant := false, time := s.timeNow } := by
  unfold State.postRequest
  rw [if_neg (by rw [hq]; decide)]
  dsimp only
  rw [vesselIs_kilnNo]

theorem exec_cool_expires {g : KilnCfg} (hw : s.work = []) (hc : (s.kiln k).cool = some 0) (hrun : s.coolRuns k = true)
    (hg : s.kilnCfg k = some g) (hroom : s.roomFor g.fan cSTOP .sequencer = true) (htr : s.transfer.running.isSome = true)
    (hreq : s.hasRequest (kilnNo k) = false) :
    exec (.coolTimerExpiry k) s = .next ((((s.queued g.fan cSTOP s.noArg .sequencer (.vessel (kilnNo k))).onKiln k fun x =>
      { x with phase := .readyStrip, cool := none }).post .phase .vessel (kilnNo k).val 5 (s.kiln k).index).onTransfer
        fun _ => s.requested .strip (kilnNo k) (some 12)) := by
  have hexec : exec (.coolTimerExpiry k) s = .next (s.coolExpires k).settle := rfl
  let q : State := (s.onKiln k fun x => { x with cool := none }).queued g.fan cSTOP s.noArg .sequencer (.vessel (kilnNo k))
  let p : State := ((s.queued g.fan cSTOP s.noArg .sequencer (.vessel (kilnNo k))).onKiln k fun x => { x with
    phase := .readyStrip, cool := none }).post .phase .vessel (kilnNo k).val 5 (s.kiln k).index
  have hsend : (s.onKiln k fun x => { x with cool := none }).kilnSend k (·.fan) cSTOP = q := by
    unfold State.kilnSend
    rw [State.kilnCfg_congr (s := s) (t := s.onKiln k _) rfl, hg]
    exact State.send_room (s := s.onKiln k _) hroom (by decide) rfl (by decide)
  have hto : q.kilnTo k .readyStrip = p := by
    rw [State.kilnTo_eq, show q.kiln k = _ from State.kiln_onKiln_same ..]
    show State.post (State.onKiln (State.queued ..) ..) .. = _
    rw [State.queued_onKiln, State.onKiln_onKiln]
    rfl
  have hmode : s.kilnMode k = .auto := by
    unfold State.coolRuns at hrun
    rw [Bool.and_eq_true, decide_eq_true_eq] at hrun
    exact hrun.1
  have hends : s.coolExpires k = p.postRequest (kilnNo k) := by
    unfold State.coolExpires
    dsimp only
    rw [if_pos ⟨hc, hrun⟩, if_pos hmode, hsend, hto]
  have htransfer : p.transfer = s.transfer := State.post_transfer ..
  have hreq' : p.hasRequest (kilnNo k) = false := by
    unfold State.hasRequest
    rw [htransfer]
    exact hreq
  have hnow : p.timeNow = s.timeNow := congrArg Clock.process (State.post_clock ..)
  rw [hexec, hends, State.postRequest_kiln hreq', State.addRequest_settles (s := p) ((State.post_work ..).trans hw)
    (by rw [htransfer]; exact htr), hnow]
  refine congrArg Host.Outcome.next (State.onTransfer_congr ?_)
  rw [htransfer]
  rfl

end

/-- Settles O28: a start by its record, the whole start by its grant, the other kiln by what it re-evaluates, and COOLING. -/
theorem kilnStagesStartAndCool : Obligations.KilnStagesStartAndCool := by
  unfold Obligations.KilnStagesStartAndCool
  refine ⟨?_, ?_, ?_, ?_, ?_⟩
  · rintro s t k n f (⟨hnext, rfl, rfl⟩ | ⟨hfirst, rfl, rfl⟩)
    · rw [State.stageEnds_next hnext]
      exact kilnStageStarts s k _ f
    · rw [State.kilnBegin_first hfirst]
      exact kilnStageStarts s k _ f
  · intro s k g e f hw hf hmin hd he hnext hg hmp hpeat hgate hcap haf hba hbf hoth hpf hpb hlen hair hrun hset hbset v n y r starts
      capped aired fired
    refine kilnStageStartsWhole s k g e f hw hf hmin hd he hnext ⟨⟨⟨hg, hpb, fun h hh => ?_⟩, haf, hba, hbf, hpf, fun h hh => ?_⟩, ?_, hmp,
      hpeat, ?_, ?_, hlen, hair, hrun, hset, hbset⟩
    · obtain ⟨-, -, hb, -, hp⟩ := hoth h hh
      exact ⟨hb, hp⟩
    · obtain ⟨ha, hf, -, hp, -⟩ := hoth h hh
      exact ⟨ha, hf, hp⟩
    · simp only [State.minimumDue, State.testsEnd, Bool.and_eq_true, decide_eq_true_eq] at hd
      exact hd.1.1.1.2
    · rw [State.kiln_onKiln_same]
      exact hgate
    · rw [State.kiln_onKiln_same]
      exact hcap
  · intro s k a f ha hf y t r auto
    obtain ⟨hg, hc⟩ := State.changeGrant_falls_kiln ha
    refine ⟨hg, hc, fun hm hp hi hd => ?_, fun hm hp hg => State.changeGrant_takes_kiln hf ha hm hp hg,
      State.changeGrant_rests_kiln hf ha⟩
    obtain ⟨c, st, b, hk⟩ := State.changeGrant_fires_kiln hf ha hm hp hi hd
    refine ⟨congrArg Kiln.phase hk, congrArg Kiln.grant hk, congrArg Kiln.firing hk, congrArg Kiln.minutes hk,
      congrArg Kiln.minTaken hk, (congrArg Kiln.ring hk).trans rfl, ?_⟩
    intro g hg hth hb hc0 hg0 hgate hpeat hpos v u hoth hpb hlen hduty hrun hset
    exact State.changeGrant_fires_whole hf ha hm hp hi hd ⟨hg, hpb, fun h hh => hoth h (by rwa [other_other] at hh)⟩ hth hb hc0 hg0
      hgate hpeat hpos hlen hduty hrun hset
  · intro s k w hnext hw hc t
    obtain ⟨hk, ho⟩ := State.kilnCools_kilns hw hc
    have ht : t = s.kilnCools k := State.stageEnds_last hnext
    rw [ht, hk]
    exact ⟨rfl, rfl, rfl, rfl, rfl, rfl, rfl, rfl, ho⟩
  · intro s k g hw hc hrun hg hroom htr hreq
    exact exec_cool_expires hw hc hrun hg hroom htr hreq

end Sys2Proof.Machine
end

section
/-! PROOFS. The COMMIT of tables 1 to 10: its checks, and the table that it replaces (R25, R101, R174, R175, R184). -/

namespace Sys2Proof.Machine

-- One declaration after the other: side by side, their stacks are more than the check's bound on memory.
set_option Elab.async false

/-! ## The handler -/

theorem tableCommit_ok {s : State} {r : Request} {id : Byte} {n : Nat} (hargs : r.args = [id]) (hn : entriesOf id.toNat = some n)
    (hx : exciseTable id.toNat = false) (h : s.commitOk id.toNat = .ok) :
    tableCommit .plant r s = (s.commitTable id.toNat).done := by
  unfold tableCommit
  rw [hargs]
  dsimp only
  rw [hn]
  dsimp only
  rw [State.tableRight_plant hx, if_neg (by decide), hx, if_neg Bool.false_ne_true, h]

theorem tableCommit_refuses {s : State} {r : Request} {id : Byte} {n : Nat} (hargs : r.args = [id])
    (hn : entriesOf id.toNat = some n) (hx : exciseTable id.toNat = false) (h : s.commitOk id.toNat ≠ .ok) :
    tableCommit .plant r s = s.says (s.commitOk id.toNat) := by
  unfold tableCommit
  rw [hargs]
  dsimp only
  rw [hn]
  dsimp only
  rw [State.tableRight_plant hx, if_neg (by decide), hx, if_neg Bool.false_ne_true]
  generalize s.commitOk id.toNat = st at h
  cases st with
  | ok => exact absurd rfl h
  | _ => rfl

theorem State.commitOk_received (s : State) (id : Nat) : (s.received .plant).commitOk id = s.commitOk id := rfl

/-- An accepted COMMIT whose effects leave nothing under way is answered OK at once. -/
theorem exec_tableCommit {s u : State} {r : Request} {id : Byte} {n : Nat} (h : s.takes .plant r = true) (hargs : r.args = [id])
    (hn : entriesOf id.toNat = some n) (hx : exciseTable id.toNat = false) (hok : s.commitOk id.toNat = .ok)
    (hu : (s.received .plant).commitTable id.toNat = u) (hw : u.work = s.work) :
    exec (.tableCommit r) s = .next (u.replies r 1 2 .ok) := by
  refine congrArg Host.Outcome.next (State.requestArrives_settles h (a := .of .ok) ?_ (hw.trans (State.takes_iff.1 h).1))
  rw [tableCommit_ok hargs hn hx ((s.commitOk_received _).trans hok), hu]
  rfl

/-- An accepted COMMIT that has the arbiter scan, which has nothing to find. -/
theorem exec_tableCommit_scans {s u : State} {r : Request} {id : Byte} {n : Nat} (h : s.takes .plant r = true)
    (hargs : r.args = [id]) (hn : entriesOf id.toNat = some n) (hx : exciseTable id.toNat = false)
    (hok : s.commitOk id.toNat = .ok) (hu : (s.received .plant).commitTable id.toNat = u.emit .scan) (hw : u.work = s.work)
    (hscan : u.noScan = true) : exec (.tableCommit r) s = .next (u.replies r 1 2 .ok) := by
  refine congrArg Host.Outcome.next (State.requestArrives_scans h (a := .of .ok) ?_ (hw.trans (State.takes_iff.1 h).1) hscan)
  rw [tableCommit_ok hargs hn hx ((s.commitOk_received _).trans hok), hu]
  rfl

/-! ## The checks -/

theorem State.commitConfigOk_wrongState {s : State} {b : Option Nat} (hc : s.staged.config = { s.tables.config with budget := b })
    (ho : s.ownAddr = 112) (hp : s.plantAddr = 1) (ht : s.terminalAddr = 126) (hb : s.staged.config.budgetOf < s.grantSum) :
    s.commitConfigOk = .wrongState := by
  have hown : s.staged.config.own.getD 112 = 112 := by rw [hc]; exact ho
  have hplant : s.staged.config.plant.getD 1 = 1 := by rw [hc]; exact hp
  unfold State.commitConfigOk
  dsimp only
  rw [hown, hplant, ht, if_neg (by decide), if_pos hb]

theorem State.commitStationOk_wrongState {s : State} {x : Running} {leg : RouteLeg} (hr : s.transfer.running = some x)
    (hl : leg ∈ x.route) (hs : s.staged.station.get leg.step.station = none) : s.commitStationOk = .wrongState := by
  refine if_neg fun hall => ?_
  have hmem : leg.step.station ∈ s.runStations := by
    unfold State.runStations
    rw [hr]
    exact List.mem_append_left _ (List.mem_map.2 ⟨leg, hl, rfl⟩)
  have hget := List.all_eq_true.1 hall _ hmem
  rw [hs] at hget
  exact Bool.false_ne_true hget

theorem State.commitTransferOk_wrongState {s : State} (hok : s.staged.transfer.ok = true) (hr : s.transfer.running.isSome = true)
    (hd : s.staged.transfer.run.map (·.drawer) ≠ s.tables.transfer.run.map (·.drawer)) : s.commitTransferOk = .wrongState := by
  unfold State.commitTransferOk
  rw [hok, if_neg (by decide), if_pos ⟨hr, hd⟩]

/-! ## The vessels that do not try again -/

theorem State.steepRetry_still {s : State} {i : Fin 4} (h : s.steepMode i = .auto → (s.steep i).phase ≠ .idle) : s.steepRetry i = s :=
  if_neg fun ⟨hm, hp⟩ => h hm hp

theorem State.germRetry_still {s : State} {c : Fin 6} (h : (s.comp c).phase = .germinating → (s.comp c).index ≠ 255) :
    s.germRetry c = s :=
  if_neg fun ⟨hp, hi, _⟩ => h hp hi

theorem State.kilnRetry_still {s : State} {k : Fin 2} (h : (s.kiln k).phase = .waitHeat → (s.kiln k).index ≠ 255) :
    s.kilnRetry k = s :=
  if_neg fun ⟨hp, hi, _⟩ => h hp hi

/-! ## The MP table -/

/-- The live states after the COMMIT of an MP table for the numbers of a list: an MP whose entry is as before keeps its own,
and another is created or removed. -/
def liveAfter (old new : Tbl MpEntry) (live : Tbl MpLive) (ns : List Nat) : Tbl MpLive :=
  ns.foldl (fun l n => if new.get n = old.get n then l else l.set n ((new.get n).map MpLive.created)) live

theorem liveAfter_same {old new : Tbl MpEntry} {n : Nat} (h : new.get n = old.get n) (l : Tbl MpLive) (ns : List Nat) :
    liveAfter old new l (n :: ns) = liveAfter old new l ns := by
  unfold liveAfter
  rw [List.foldl_cons, if_pos h]

theorem liveAfter_renewed {old new : Tbl MpEntry} {n : Nat} (h : new.get n ≠ old.get n) (l : Tbl MpLive) (ns : List Nat) :
    liveAfter old new l (n :: ns) = liveAfter old new (l.set n ((new.get n).map MpLive.created)) ns := by
  unfold liveAfter
  rw [List.foldl_cons, if_neg h]

theorem MpLive.created_eq (e : MpEntry) : MpLive.created e =
    { status := .none, last := none, lastGood := none, stageHigh := none
      comp := if e.low.isSome ∨ e.high.isSome then some (.steady .normal) else none } := by
  simp [MpLive.created, Limits.any, MpEntry.limits]

theorem liveAfter_eq (old new : Tbl MpEntry) (live : Tbl MpLive) (ns : List Nat) : liveAfter old new live ns =
    ns.foldl (fun l n =>
      if new.get n = old.get n then l
      else l.set n ((new.get n).map fun e =>
        { status := .none, last := none, lastGood := none, stageHigh := none
          comp := if e.low.isSome ∨ e.high.isSome then some (.steady .normal) else none })) live := by
  unfold liveAfter
  rw [funext MpLive.created_eq]

theorem Tbl.get_set_ne {α : Type} (t : Tbl α) {n m : Nat} (h : m ≠ n) (o : Option α) : (t.set n o).get m = t.get m := by
  cases o with
  | none => exact Tbl.get_del_ne t h
  | some a => exact Tbl.get_put_ne t h a

/-- The entry of an MP changes so that the MP is re-created or emptied, and it has no comparator that would cease. -/
structure State.Renews (s : State) (old : Tbl MpEntry) (n : Nat) : Prop where
  comp : (s.live n).comp = none
  keeps : ∀ a b, old.get n = some a → s.tables.mp.get n = some b → b.keeps a = false

theorem MpEntry.keeps_eq_false {old new : MpEntry}
    (h : old.station ≠ new.station ∨ old.channel ≠ new.channel ∨ old.kind ≠ new.kind) : new.keeps old = false := by
  simp only [MpEntry.keeps, Bool.and_eq_false_iff, decide_eq_false_iff_not]
  rcases h with h | h | h
  · exact .inl (.inl h.symm)
  · exact .inl (.inr h.symm)
  · exact .inr h.symm

theorem State.commitMpEntry_same {s : State} {old : Tbl MpEntry} {n : Nat} (h : s.tables.mp.get n = old.get n) :
    s.commitMpEntry old n = (s, []) := by
  cases he : s.tables.mp.get n with
  | none =>
    unfold State.commitMpEntry
    rw [← h, he]
  | some e => exact (comparatorMovesByTable.2.2.2 s old n e he).1 (h.symm.trans he)

theorem State.commitMpEntry_renews {s : State} {old : Tbl MpEntry} {n : Nat} (hne : s.tables.mp.get n ≠ old.get n)
    (h : s.Renews old n) : s.commitMpEntry old n =
      (s.onIntake fun i => { i with live := i.live.set n ((s.tables.mp.get n).map MpLive.created) }, []) := by
  have hrec : ∀ e, s.recreateMp n e = s.onIntake fun i => { i with live := i.live.set n (e.map MpLive.created) } := by
    intro e
    unfold State.recreateMp
    rw [State.postClosed_eq, if_pos (by rw [h.comp]; rfl)]
  unfold State.commitMpEntry
  cases ho : old.get n with
  | none =>
    cases he : s.tables.mp.get n with
    | none => exact absurd (he.trans ho.symm) hne
    | some e => exact congrArg (·, []) (hrec (some e))
  | some a =>
    cases he : s.tables.mp.get n with
    | none => exact congrArg (·, []) (hrec none)
    | some e =>
      dsimp only
      rw [h.keeps a e ho he, if_neg Bool.false_ne_true, hrec]

theorem State.commitMpEntries_renews {s : State} {old : Tbl MpEntry} {ns : List Nat} (hnd : ns.Nodup)
    (h : ∀ n ∈ ns, s.tables.mp.get n ≠ old.get n → s.Renews old n) : s.commitMpEntries old ns =
      (s.onIntake fun i => { i with live := liveAfter old s.tables.mp i.live ns }, []) := by
  induction ns generalizing s with
  | nil => rfl
  | cons n ns ih =>
    obtain ⟨hn, hnd⟩ := List.nodup_cons.1 hnd
    unfold State.commitMpEntries
    dsimp only
    by_cases hs : s.tables.mp.get n = old.get n
    · rw [State.commitMpEntry_same hs, ih hnd fun m hm => h m (List.mem_cons_of_mem _ hm)]
      simp only [liveAfter_same hs, List.append_nil]
    · rw [State.commitMpEntry_renews hs (h n List.mem_cons_self hs)]
      rw [ih hnd fun m hm hne => ?_]
      · simp only [liveAfter_renewed hs]
        rfl
      · obtain ⟨hc, hk⟩ := h m (List.mem_cons_of_mem _ hm) hne
        refine ⟨?_, hk⟩
        have hmn : m ≠ n := fun he => hn (he ▸ hm)
        show (((s.intake.live.set n _).get m).getD {}).comp = none
        rw [Tbl.get_set_ne _ hmn]
        exact hc

/-- What a COMMIT of the MP table finds, where no owner and no watch has anything to follow: the steeps and kilns stand as the
new MPs have them. -/
structure State.StandsAs (s u : State) : Prop where
  co2 : ∀ i, (s.steep i).co2Hold = (decide (s.steepMode i ≠ .off) && u.co2High i)
  clear : ∀ k, thermalOf (u.heatComparators k) = .clear ∧ (s.kiln k).thermal = .clear ∧ (s.kiln k).heatSeen = false

theorem State.co2Refresh_still {s : State} {i : Fin 4} (h : (s.steep i).co2Hold = (decide (s.steepMode i ≠ .off) && s.co2High i)) :
    s.co2Refresh i = s :=
  if_pos h

theorem State.retakeThermal_still {s : State} {k : Fin 2} (h : thermalOf (s.heatComparators k) = .clear)
    (ht : (s.kiln k).thermal = .clear) (hs : (s.kiln k).heatSeen = false) : s.retakeThermal k false = s := by
  unfold State.retakeThermal
  dsimp only
  rw [h]
  dsimp only
  rw [if_neg fun hn => hn.2 ht, ← ht, ← hs]
  exact State.onKiln_self rfl

theorem State.rewatch_still {s : State} {old : Tbl MpEntry} {v : Fin 12} (h : watchMpIn s.tables.mp v = watchMpIn old v) :
    s.rewatch old v = s := by
  refine (ite_eq_left_iff.2 fun _ => ?_)
  rw [h]
  cases watchMpIn old v <;> rfl

theorem State.commitMp_renews {s : State} {new : Tbl MpEntry} (h : ∀ n < 128, new.get n ≠ s.tables.mp.get n →
      (s.onTables fun t => { t with mp := new }).Renews s.tables.mp n)
    (hw : ∀ v, watchMpIn new v = watchMpIn s.tables.mp v) {u : State}
    (hu : u = (s.onTables fun t => { t with mp := new }).onIntake fun i => { i with
      live := liveAfter s.tables.mp new i.live (List.range 128) }) (hs : s.StandsAs u) : s.commitMp new = u := by
  obtain ⟨hco2, hclear⟩ := hs
  have hp : ((s.onTables fun t => { t with mp := new }).commitMpEntries s.tables.mp (List.range 128)) = (u, []) :=
    (State.commitMpEntries_renews List.nodup_range fun n hn => h n (List.mem_range.1 hn)).trans (congrArg (·, []) hu.symm)
  have hsteep : ∀ i, u.co2Refresh i = u := fun i => State.co2Refresh_still (by rw [hu] at hco2 ⊢; exact hco2 i)
  have hkiln : ∀ k, u.retakeThermal k false = u := fun k => by
    obtain ⟨h1, h2, h3⟩ := hclear k
    exact State.retakeThermal_still h1 (by rw [hu]; exact h2) (by rw [hu]; exact h3)
  have hwatch : ∀ v, u.rewatch s.tables.mp v = u := fun v => State.rewatch_still (by rw [hu]; exact hw v)
  unfold State.commitMp
  dsimp only
  rw [hp, State.tellAll_nil, List.foldl_fixed' (f := fun s i => State.co2Refresh s i) hsteep,
    List.foldl_fixed' (f := fun s k => State.retakeThermal s k false) hkiln,
    List.foldl_fixed' (f := fun s v => State.rewatch s _ v) hwatch]

/-! ## The COMMIT of each table -/

theorem State.commitConfig_within {s : State} (h : s.staged.config.budgetOf ≤ s.budget) :
    s.commitConfig = s.onTables fun t => { t with config := s.staged.config } :=
  if_neg (Nat.not_lt.2 h)

theorem State.commitTable_steep (s : State) (h : ∀ i : Fin 4, s.steepMode i = .auto → (s.steep i).phase ≠ .idle) :
    s.commitTable 7 = s.onTables fun t => { t with steep := s.staged.steep } := by
  have hstill : ∀ i, (s.onTables fun t => { t with steep := s.staged.steep }).steepRetry i =
      s.onTables fun t => { t with steep := s.staged.steep } :=
    fun i => State.steepRetry_still (h i)
  exact List.foldl_fixed' (f := fun s i => State.steepRetry s i) hstill _

theorem State.commitTable_germ (s : State) (h : ∀ c : Fin 6, (s.comp c).phase = .germinating → (s.comp c).index ≠ 255) :
    s.commitTable 8 = s.onTables fun t => { t with germ := s.staged.germ } := by
  have hstill : ∀ c, (s.onTables fun t => { t with germ := s.staged.germ }).germRetry c =
      s.onTables fun t => { t with germ := s.staged.germ } :=
    fun c => State.germRetry_still (h c)
  exact List.foldl_fixed' (f := fun s c => State.germRetry s c) hstill _

theorem State.commitTable_kiln (s : State) (h : ∀ k : Fin 2, (s.kiln k).phase = .waitHeat → (s.kiln k).index ≠ 255) :
    s.commitTable 9 = s.onTables fun t => { t with kiln := s.staged.kiln } := by
  have hstill : ∀ k, (s.onTables fun t => { t with kiln := s.staged.kiln }).kilnRetry k =
      s.onTables fun t => { t with kiln := s.staged.kiln } :=
    fun k => State.kilnRetry_still (h k)
  exact List.foldl_fixed' (f := fun s k => State.kilnRetry s k) hstill _

/-- Settles O44, table by table. -/
theorem commitReplacesOrRefuses : Obligations.CommitReplacesOrRefuses := by
  intro s r id n h hargs hn hx
  refine ⟨fun hbad => ?_, fun _ hc ho hp ht hb => State.commitConfigOk_wrongState hc ho hp ht hb,
    fun _ x leg hr hl hs => State.commitStationOk_wrongState hr hl hs,
    fun _ hok hr hd => State.commitTransferOk_wrongState hok hr hd, fun hok => ?_⟩
  · refine congrArg Host.Outcome.next (State.requestArrives_says h ?_)
    exact tableCommit_refuses hargs hn hx (by rwa [State.commitOk_received])
  · intro took done
    have accepted : ∀ u, (s.received .plant).commitTable id.toNat = u → u.work = s.work → done u :=
      fun u hu hw => exec_tableCommit h hargs hn hx hok hu hw
    have scans : ∀ u, (s.received .plant).commitTable id.toNat = u.emit .scan → u.work = s.work → u.noScan = true → done u :=
      fun u hu hw hs => exec_tableCommit_scans h hargs hn hx hok hu hw hs
    refine ⟨fun hid hb => ?_, fun hid => ?_, fun hid => ?_, fun hid => ?_, fun hid => ?_, fun hid hs => ?_, fun hid hm => ?_,
      fun hid hm => ?_, fun hid hm => ?_, fun hid hs => ?_⟩ <;> subst hid
    · exact accepted _ (State.commitConfig_within hb) rfl
    · exact accepted _ rfl rfl
    · exact accepted _ rfl rfl
    · intro live u hne hw hco2 hclear
      refine accepted u ?_ rfl
      have hlive : live = liveAfter s.tables.mp s.staged.mp s.intake.live (List.range 128) :=
        (liveAfter_eq ..).symm
      clear_value live
      subst hlive
      refine State.commitMp_renews (s := s.received .plant) (u := u) (fun n hn hd => ?_) hw rfl ⟨hco2, hclear⟩
      obtain ⟨hc, hk⟩ := hne n hn hd
      exact ⟨hc, fun a b ha hb => MpEntry.keeps_eq_false (hk a b ha hb)⟩
    · exact accepted _ rfl rfl
    · exact scans (took { s.tables with vessel := s.staged.vessel }) rfl rfl hs
    · exact accepted (took { s.tables with steep := s.staged.steep }) ((s.received .plant).commitTable_steep hm) rfl
    · exact accepted (took { s.tables with germ := s.staged.germ }) ((s.received .plant).commitTable_germ hm) rfl
    · exact accepted (took { s.tables with kiln := s.staged.kiln }) ((s.received .plant).commitTable_kiln hm) rfl
    · exact scans (took { s.tables with transfer := s.staged.transfer }) rfl rfl hs

end Sys2Proof.Machine
end

section
/-! PROOFS. The READ requests answer what they name (R20, R42, R60, R88, R116, R134, R146, R182, R186, R187). -/

namespace Sys2Proof.Machine

-- One declaration after the other: side by side, their stacks are more than the check's bound on memory.
set_option Elab.async false

/-! ## Answers that change nothing -/

/-- A request whose handler answers a part of a result and changes nothing. -/
theorem State.requestArrives_part {s : State} {o : Originator} {r : Request} (h : s.takes o r = true) {cls code : Nat}
    {hd : Handler} {res : ResultBytes} {p : Byte}
    (hh : hd o r (s.received o) = (s.received o, some (partAnswer res p.toNat))) :
    (s.requestArrives cls code hd r).settle = if p.toNat < (res.length + 43) / 44
      then (s.received o).formReply r.src.toNat r.seq.toNat cls code .ok ((res.length + 43) / 44)
        ((res.drop (44 * p.toNat)).take 44) false
      else (s.received o).replies r cls code .badArgument := by
  rw [State.requestArrives_settles h hh (State.takes_iff.1 h).1]
  unfold partAnswer
  by_cases hp : p.toNat < partsOf res
  · rw [if_pos hp]
    exact (if_pos hp).symm
  · rw [if_neg hp]
    exact (if_neg hp).symm

/-- A request whose handler answers its result whole and changes nothing. -/
theorem State.requestArrives_whole {s : State} {o : Originator} {r : Request} (h : s.takes o r = true) {cls code : Nat}
    {hd : Handler} {res : ResultBytes} (hh : hd o r (s.received o) = (s.received o, some { status := .ok, result := res })) :
    (s.requestArrives cls code hd r).settle = (s.received o).formReply r.src.toNat r.seq.toNat cls code .ok 0 res false :=
  State.requestArrives_settles h hh (State.takes_iff.1 h).1

/-! ## The handlers -/

theorem tableRead_eq {s : State} {o : Originator} {r : Request} {id i sel p : Byte} {n : Nat} (hr : r.args = [id, i, sel, p])
    (hn : entriesOf id.toNat = some n) (hseed : id.toNat ≠ 12) (hcode : id.toNat ≠ 14) (hi : i.toNat < n) (hsel : sel.toNat ≤ 1) :
    tableRead o r s = (s, some (partAnswer (s.readTable id.toNat i.toNat (decide (sel.toNat = 1))) p.toNat)) := by
  unfold tableRead
  rw [hr]
  dsimp only
  rw [hn]
  dsimp only
  rw [if_neg (not_or.2 ⟨hseed, hcode⟩), if_neg (by omega)]

theorem batchRead_eq {s : State} {o : Originator} {r : Request} {a b p : Byte} {n : Nat} {x : Batch} (hr : r.args = [a, b, 0, p])
    (hx : s.batchOf (a.toNat * 256 + b.toNat) = some (n, x)) : batchRead o r s = (s, some (partAnswer x.put p.toNat)) := by
  have hid : ofBytes [a, b] = a.toNat * 256 + b.toNat := by simp [ofBytes]
  unfold batchRead
  rw [hr]
  dsimp only
  rw [if_neg (by decide), hid, hx]

theorem vesselRead_eq {s : State} {o : Originator} {r : Request} {v : Fin 12} {p : Byte} (hr : r.args = [BitVec.ofNat 8 v.val, p]) :
    vesselRead o r s = (s, some (partAnswer (s.readVessel v) p.toNat)) := by
  unfold vesselRead
  rw [hr]
  dsimp only
  rw [vesselOf_byte]

theorem twoOf_byte (t : Fin 2) : twoOf (BitVec.ofNat 8 t.val).toNat = some t := by revert t; decide

theorem turnerRead_eq {s : State} {o : Originator} {r : Request} {t : Fin 2} {p : Byte} (hr : r.args = [BitVec.ofNat 8 t.val, p]) :
    turnerRead o r s = (s, some (partAnswer (s.turner t).put p.toNat)) := by
  unfold turnerRead
  rw [hr]
  dsimp only
  rw [twoOf_byte]

theorem transferRead_eq {s : State} {o : Originator} {r : Request} {p : Byte} (hr : r.args = [p]) :
    transferRead o r s = (s, some (partAnswer s.readTransfer p.toNat)) := by
  unfold transferRead
  rw [hr]

theorem partReadCounters_eq {s : State} {o : Originator} {r : Request} {p : Byte} (hr : r.args = [p]) :
    partReadCounters o r s = (s, some (partAnswer s.readCounters p.toNat)) := by
  unfold partReadCounters
  rw [hr]

theorem exciseReadEntry_eq {s : State} {o : Originator} {r : Request} {e : Entry} (hr : r.args.length = 4)
    (hh : s.excise.holds (ofBytes r.args) = true) (he : s.excise.slots.get (slotOf (ofBytes r.args)) = some e) :
    exciseReadEntry o r s = (s, some { status := .ok, result := e.bytes.map some }) := by
  unfold exciseReadEntry
  rw [if_neg (not_not.2 hr)]
  dsimp only
  rw [hh, if_neg (by decide), he]

theorem exciseReadStatus_eq {s : State} {o : Originator} {r : Request} (hr : r.args = []) :
    exciseReadStatus o r s = (s, some { status := .ok, result := s.readExcise }) :=
  if_neg (not_not.2 hr)

theorem partReadStatus_eq {s : State} {o : Originator} {r : Request} (hr : r.args = []) :
    partReadStatus o r s = (s, some { status := .ok, result := s.readStatus }) :=
  if_neg (not_not.2 hr)

/-! ## What a taken request leaves of the results -/

/-- The idle time is all that a taken request can change of the excise unit. -/
theorem State.received_exciseUnit (s : State) (o : Originator) : ∃ i, (s.received o).excise = { s.excise with idle := i } := by
  cases o with
  | plant => exact ⟨s.excise.idle, s.received_excise_plant⟩
  | excise => exact s.received_excise_idle

theorem State.readVessel_received (s : State) (o : Originator) (v : Fin 12) : (s.received o).readVessel v = s.readVessel v := rfl

theorem State.readTransfer_received (s : State) (o : Originator) : (s.received o).readTransfer = s.readTransfer := rfl

theorem State.readCounters_received (s : State) (o : Originator) : (s.received o).readCounters = s.readCounters := rfl

theorem State.readStatus_received (s : State) (o : Originator) : (s.received o).readStatus = s.readStatus := by
  obtain ⟨i, hi⟩ := s.received_exciseUnit o
  unfold State.readStatus
  rw [hi]
  rfl

/-- Settles O55, request by request: each handler answers what it names from the state that the taking leaves. -/
theorem readsAnswerAndChangeNothing : Obligations.ReadsAnswerAndChangeNothing := by
  intro s o r h u part whole
  have parts : ∀ (c : Instr) (cls code : Nat) (hd : Handler) (res : ResultBytes) (p : Byte),
      exec c s = .next (s.requestArrives cls code hd r).settle → hd o r u = (u, some (partAnswer res p.toNat)) →
      part c cls code res p :=
    fun _ _ _ _ _ _ hc hh => hc.trans (congrArg Host.Outcome.next (State.requestArrives_part h hh))
  have wholes : ∀ (c : Instr) (cls code : Nat) (hd : Handler) (res : ResultBytes),
      exec c s = .next (s.requestArrives cls code hd r).settle → hd o r u = (u, some { status := .ok, result := res }) →
      whole c cls code res :=
    fun _ _ _ _ _ hc hh => hc.trans (congrArg Host.Outcome.next (State.requestArrives_whole h hh))
  obtain ⟨idle, hidle⟩ := s.received_exciseUnit o
  refine ⟨fun id i sel p n hr hn hseed hcode hi hsel => ?_, fun a b p n x hr hx => ?_, fun v p hr => ?_, fun t p hr => ?_,
    fun p hr => ?_, fun p hr => ?_, fun e hr hh he => ?_, fun hr => ?_, fun hr => ?_⟩
  · exact parts _ 1 4 tableRead _ p rfl (tableRead_eq hr hn hseed hcode hi hsel)
  · exact parts _ 2 5 batchRead _ p rfl (batchRead_eq hr hx)
  · rw [← s.readVessel_received o]
    exact parts _ 3 3 vesselRead _ p rfl (vesselRead_eq hr)
  · exact parts _ 4 3 turnerRead _ p rfl (turnerRead_eq hr)
  · rw [← s.readTransfer_received o]
    exact parts _ 5 4 transferRead _ p rfl (transferRead_eq hr)
  · rw [← s.readCounters_received o]
    exact parts _ 7 3 partReadCounters _ p rfl (partReadCounters_eq hr)
  · exact wholes _ 6 3 exciseReadEntry _ rfl (exciseReadEntry_eq hr (by rw [hidle]; exact hh) (by rw [hidle]; exact he))
  · exact wholes _ 6 5 exciseReadStatus _ rfl (exciseReadStatus_eq hr)
  · rw [← s.readStatus_received o]
    exact wholes _ 7 1 partReadStatus _ rfl (partReadStatus_eq hr)

end Sys2Proof.Machine
end
